-- ==== Sys2Proof/Word.lean ====
section
/-! DEFINITION. The word types of the block: unsigned integers of 8, 16 and 32 bits (00_scope.md section 5, R36, R61).
There is no signed value anywhere in the block. -/

namespace Sys2Proof

/-- `u8`: one message byte (R50: byte addressed, 8 bits). -/
abbrev Byte := BitVec 8

/-- `u16`. -/
abbrev U16 := BitVec 16

/-- `u32`. -/
abbrev U32 := BitVec 32

/-- A message offset or length, `LEN_W` = 32 bits (R11). -/
abbrev Offset := BitVec 32

/-- An absolute byte address, `ADDR_W` = 32 bits (R11). -/
abbrev Addr := BitVec 32

end Sys2Proof
end

