-- ==== Sys2Proof/Config.lean ====
section
/-! DEFINITION. The configuration registers `CFG` (R6 to R13, R35): read-only constants of the block. The fields a build
chooses are fields of `Cfg`; the fields the spec fixes for every build are constant functions of a `Cfg`. The one
parameter the spec leaves OPEN, `STD_TAG_SET`, is an opaque constant. -/

namespace Sys2Proof

/-- `BYTE_ORDER` (R6): the order in which the reader assembles a multi-byte integer. -/
inductive ByteOrder where
  | le
  | be
deriving DecidableEq, Repr

/-- The numeric coding of `BYTE_ORDER`: `LE` = 0, `BE` = 1 (R35, D14). -/
def ByteOrder.code : ByteOrder → BitVec 1
  | .le => 0
  | .be => 1

/-- `IWB` (R7): the interval width in bytes, 2 or 4. -/
inductive IntervalWidth where
  | two
  | four
deriving DecidableEq, Repr

/-- `IWB` as a number of bytes. -/
def IntervalWidth.bytes : IntervalWidth → Nat
  | .two => 2
  | .four => 4

/-- `IW` = 8 × `IWB`, the interval width in bits (R7). -/
def IntervalWidth.bits (w : IntervalWidth) : Nat := 8 * w.bytes

/-- The configurable fields of `CFG` (R35). `stdTagSet` has one bit per tag 0..238, so no configuration can put a
reserved tag (239..255) into the standard set: R9's constraint holds by the type. -/
structure Cfg where
  byteOrder : ByteOrder
  iwb : IntervalWidth
  tagDelay : Byte
  tagRaw : Byte
  tagPana : Byte
  stdTagSet : BitVec 239
deriving DecidableEq, Repr

namespace Cfg

/-- `TAGMAP_VERSION` = 1 (R12): names the tag assignment; no rule depends on it. -/
def tagmapVersion (_ : Cfg) : Byte := 1

/-- `TICK` = 432 µs (R10). -/
def tick (_ : Cfg) : U32 := 432

/-- `HDR_MARK_TICKS` = 8 (R10). -/
def hdrMarkTicks (_ : Cfg) : U32 := 8

/-- `HDR_SPACE_TICKS` = 4 (R10). -/
def hdrSpaceTicks (_ : Cfg) : U32 := 4

/-- `BIT_MARK_TICKS` = 1 (R10). -/
def bitMarkTicks (_ : Cfg) : U32 := 1

/-- `ONE_SPACE_TICKS` = 3 (R10). -/
def oneSpaceTicks (_ : Cfg) : U32 := 3

/-- `ZERO_SPACE_TICKS` = 1 (R10). -/
def zeroSpaceTicks (_ : Cfg) : U32 := 1

/-- `PANA_FREQ` = 36700 Hz (R10, R199). -/
def panaFreq (_ : Cfg) : U32 := 36700

/-- `SCR_CAP` = 250 bytes (R13). -/
def scrCap (_ : Cfg) : Nat := 250

/-- A tag byte of the reserved range 239..255 (R8, R81). -/
def reserved (t : Byte) : Bool := decide (239 ≤ t.toNat)

/-- R8: the three custom tags lie in 239..255 and are pairwise distinct. A configuration that breaks this is refused
by the model (R9, D21). -/
def wf (c : Cfg) : Bool :=
  reserved c.tagDelay && reserved c.tagRaw && reserved c.tagPana &&
    c.tagDelay != c.tagRaw && c.tagDelay != c.tagPana && c.tagRaw != c.tagPana

end Cfg

/-- `STD_TAG_SET` (R9, D4): OPEN in the spec, so it has no body here: bit `t` says whether tag `t` (0..238) is a
standard-protocol tag. Nothing can be proved of its value. -/
opaque Config.stdTagSet : BitVec 239

/-- The configuration of this hardware (R35, column "this hardware"). -/
def Cfg.thisHardware : Cfg where
  byteOrder := .le
  iwb := .two
  tagDelay := 239
  tagRaw := 240
  tagPana := 241
  stdTagSet := Config.stdTagSet

end Sys2Proof
end

