-- ==== Sys2Proof/Syntax.lean ====
section
/-! DEFINITION. The instructions of the block: one constructor per row of spec/opcode_table.json. The first six are the
frame kinds of the opcode map (R80); the last four are the reader operations of 40_unaligned_reader.md. -/

namespace Sys2Proof

/-- An instruction. A frame kind carries the handler payload, the `len − 1` bytes after the tag (R72): every byte string
the length byte can announce is a form of the row, the ill-shaped ones included (R73: the shape is checked by the
handler and never moves the next frame). A reader operation carries the message offset it reads at. -/
inductive Instr where
  /-- `EMPTY`: a frame with `len` = 0 (R74, R143). -/
  | empty
  /-- `STD`: a frame whose tag is in `STD_TAG_SET` (R75, R145). -/
  | std (tag : Byte) (payload : List Byte)
  /-- `DELAY`: a frame with tag `TAG_DELAY` (R76, R148). -/
  | delay (payload : List Byte)
  /-- `RAW`: a frame with tag `TAG_RAW` (R77, R171). -/
  | raw (payload : List Byte)
  /-- `PANA`: a frame with tag `TAG_PANA` (R79, R193). -/
  | pana (payload : List Byte)
  /-- `UNKNOWN`: a frame with any other tag (R81, R82, R151). -/
  | unknown (tag : Byte) (payload : List Byte)
  /-- `RD8(off)` (R105). -/
  | rd8 (off : Offset)
  /-- `RD16(off)` (R106). -/
  | rd16 (off : Offset)
  /-- `RD32(off)` (R107). -/
  | rd32 (off : Offset)
  /-- `RDIW(off)` (R108). -/
  | rdiw (off : Offset)
deriving DecidableEq, Repr

end Sys2Proof
end

