-- ==== Sys2Proof/WellFormed.lean ====
section
/-! DEFINITION. Which terms of `Instr` are instructions the encoding admits, under a configuration: the payload fits the
length byte (R72) and the tag belongs to the class of its row (R80). The payload SHAPE is no part of this: an ill-shaped
frame is an instruction too, whose meaning is a diagnostic (R73). -/

namespace Sys2Proof

/-- R9: membership of a tag in `STD_TAG_SET`. -/
def Cfg.inStdSet (c : Cfg) (t : Byte) : Bool :=
  decide (t.toNat < 239) && c.stdTagSet.getLsbD t.toNat

/-- Custom tags (R8). -/
def Cfg.isCustom (c : Cfg) (t : Byte) : Bool :=
  t == c.tagDelay || t == c.tagRaw || t == c.tagPana

/-- R72: the handler payload of a frame has 0..254 bytes. -/
def payloadFits (payload : List Byte) : Bool := decide (payload.length ≤ 254)

/-- The encoding admits the instruction. -/
def Instr.wf (c : Cfg) : Instr → Bool
  | .empty => true
  | .std tag p => c.inStdSet tag && payloadFits p
  | .delay p => payloadFits p
  | .raw p => payloadFits p
  | .pana p => payloadFits p
  | .unknown tag p => !c.inStdSet tag && !c.isCustom tag && payloadFits p
  | .rd8 _ => true
  | .rd16 _ => true
  | .rd32 _ => true
  | .rdiw _ => true

end Sys2Proof
end

