-- ==== Sys2Proof/Decode.lean ====
section
/-! DEFINITION. The decoder, total on any bytes and rejecting by name, the encoder written from the same formats
(30_encoding.md R71 to R82; the reader's width select, R104), and the reading of spec/opcode_table.json's own bit numbering. -/

namespace Sys2Proof

/-- What an instruction is written as: a frame is bytes of the message (R72); a reader operation is no wire encoding but
the reader's two inputs, `WSEL` and the offset (R104). -/
inductive Encoded where
  | frame (bytes : List Byte)
  | call (wsel : BitVec 2) (off : Offset)
deriving DecidableEq, Repr

/-- Why bytes or a reader call decode to no instruction. -/
inductive DecodeError where
  /-- No length byte (R126). -/
  | noLengthByte
  /-- The length byte announces more bytes than there are (R124). -/
  | bodyOverrun
  /-- `WSEL` = 3 is not a legal value (R104). -/
  | reservedWidthSelect
deriving DecidableEq, Repr

/-- The outcome of decoding: an instruction and the bytes after it, or a rejection by name. -/
inductive Decoded where
  | ok (i : Instr) (rest : List Byte)
  | error (e : DecodeError)
deriving DecidableEq, Repr

/-- The classes of an EncodingTag (R144). -/
inductive TagClass where
  | standard
  | delay
  | raw
  | panasonicRaw
  | unrecognized
deriving DecidableEq, Repr

/-- R144, R80: the class of a tag, tested in the dispatcher's order (R141). Reads the tag and `CFG` only. -/
def Cfg.classify (c : Cfg) (t : Byte) : TagClass :=
  if c.inStdSet t then .standard
  else if t = c.tagDelay then .delay
  else if t = c.tagRaw then .raw
  else if t = c.tagPana then .panasonicRaw
  else .unrecognized

/-- The instruction of a frame body (R72): no byte is `EMPTY`; otherwise the first byte is the tag (R141) and the rest
the handler payload. Every body is an instruction (R82: no tag is illegal to the decoder). -/
def decodeBody (c : Cfg) : List Byte → Instr
  | [] => .empty
  | tag :: payload =>
    match c.classify tag with
    | .standard => .std tag payload
    | .delay => .delay payload
    | .raw => .raw payload
    | .panasonicRaw => .pana payload
    | .unrecognized => .unknown tag payload

/-- A frame cut from the front of a byte string by its own length byte and nothing else (R73). -/
def decodeFrame (c : Cfg) : List Byte → Decoded
  | [] => .error .noLengthByte
  | len :: rest =>
    if rest.length < len.toNat then .error .bodyOverrun
    else .ok (decodeBody c (rest.take len.toNat)) (rest.drop len.toNat)

/-- The reader operation of a width select (R104): `WSEL` = log2 of the width. -/
def decodeCall (wsel : BitVec 2) (off : Offset) : Decoded :=
  if wsel = 0 then .ok (.rd8 off) []
  else if wsel = 1 then .ok (.rd16 off) []
  else if wsel = 2 then .ok (.rd32 off) []
  else .error .reservedWidthSelect

/-- The decoder. -/
def decode (c : Cfg) : Encoded → Decoded
  | .frame bytes => decodeFrame c bytes
  | .call wsel off => decodeCall wsel off

/-- R108, R104: the width select that `RDIW` drives, log2 of `IWB`. -/
def Cfg.intervalSelect (c : Cfg) : BitVec 2 :=
  match c.iwb with
  | .two => 1
  | .four => 2

/-- A frame's bytes: the length byte counts the tag and the payload (R72). -/
def frameBytes (tag : Byte) (payload : List Byte) : List Byte :=
  BitVec.ofNat 8 (payload.length + 1) :: tag :: payload

/-- The encoder: the words of a well-formed instruction. -/
def encode (c : Cfg) : Instr → Encoded
  | .empty => .frame [0]
  | .std tag p => .frame (frameBytes tag p)
  | .delay p => .frame (frameBytes c.tagDelay p)
  | .raw p => .frame (frameBytes c.tagRaw p)
  | .pana p => .frame (frameBytes c.tagPana p)
  | .unknown tag p => .frame (frameBytes tag p)
  | .rd8 off => .call 0 off
  | .rd16 off => .call 1 off
  | .rd32 off => .call 2 off
  | .rdiw off => .call c.intervalSelect off

/-- The `n` bytes of a table word, the first byte its least significant. -/
def wordBytes : Nat → Nat → List Byte
  | 0, _ => []
  | n + 1, w => BitVec.ofNat 8 w :: wordBytes n (w / 256)

/-- DESIGN CHOICE (log 9): the length byte laid before a one-byte table word that is a tag: the shortest frame of the
row's required shape (R80). -/
def tableLen (c : Cfg) (tag : Byte) : Byte :=
  if tag = c.tagDelay then 3 else if tag = c.tagPana then 1 else 5

/-- Lays out the words of one instruction as spec/opcode_table.json numbers them (log 9). The table's bits stand for three
different things: a row of at most 8 bits is a width select (READER rows, values 1 to 7, only bits 1..0 count), the length
byte 0 (`EMPTY`), or a tag byte at frame offset 1 (every other value), whose length byte the table does not number. A
longer word is the frame's own bytes from its length byte on, zeros above it. -/
def tableEncoded (c : Cfg) (nbits w : Nat) : Encoded :=
  if nbits < 8 then .call (BitVec.ofNat 2 w) 0
  else if nbits < 16 then
    if w % 256 = 0 then .frame [0]
    else if w % 256 < 8 then .call (BitVec.ofNat 2 w) 0
    else
      let tag := BitVec.ofNat 8 w
      .frame (tableLen c tag :: tag :: List.replicate ((tableLen c tag).toNat - 1) 0)
  else
    .frame ((wordBytes (nbits / 8) w ++ List.replicate 256 0).take (w % 256 + 1))

/-- The instruction the decoder reads from a table word, on this hardware. -/
def decodeTableWord (nbits w : Nat) : Option Instr :=
  match decode Cfg.thisHardware (tableEncoded Cfg.thisHardware nbits w) with
  | .ok i _ => some i
  | .error _ => none

end Sys2Proof
end

