-- ==== Sys2Proof/Machine/State.lean ====
section
/-! DEFINITION. The state of the block as plain data (10_state.md), the events of its output trace (00_scope.md section 5),
the named reasons a step can stop, and the state after reset (R250). -/

namespace Sys2Proof.Machine

/-- `PHASE` (R22). -/
inductive Phase where
  | idle
  | run
deriving DecidableEq, Repr

/-- `PPH`, the phase of the Panasonic encoder (R196). -/
inductive PanaPhase where
  | hdrMark
  | hdrSpace
  | bitMark
  | bitSpace
  | trailMark
  | trailSpace
  | done
deriving DecidableEq, Repr

/-- The diagnostic kinds (R210). Only `unknownEncoding` carries a value (R216, R218). -/
inductive DiagKind where
  | frameOverrun
  | trailingOrTruncatedData
  | emptyFrame
  | unexpectedPayloadSize
  | invalidRawLength
  | unknownEncoding (tag : Byte)
  | readOutOfBounds
deriving DecidableEq, Repr

/-- One element of a raw waveform: `(isMark, durationµs)` (00_scope.md section 5). -/
structure Pulse where
  isMark : Bool
  dur : U32
deriving DecidableEq, Repr

/-- An interval list, handed over at its element width (R174). -/
inductive Intervals where
  | w16 (l : List U16)
  | w32 (l : List U32)
deriving DecidableEq, Repr

/-- The alphabet of `OUT` (00_scope.md section 5). -/
inductive Event where
  /-- `Tx.GenericCode(tag, code, bits)`. -/
  | genericCode (tag : Byte) (code : U32) (bits : Byte)
  /-- `Tx.RawIntervals(freq, ivs)`. -/
  | rawIntervals (freq : U32) (ivs : Intervals)
  /-- `Tx.RawWaveform(freq, pulses)`. -/
  | rawWaveform (freq : U32) (pulses : List Pulse)
  /-- `Wait(ms)`. -/
  | wait (ms : U16)
  /-- `Diag(kind)`. -/
  | diag (kind : DiagKind)
deriving DecidableEq, Repr

/-- Byte memory: (address, byte) pairs in the canonical form `Memory.wf`. An unlisted address holds NO VALUE (log 3). -/
abbrev Memory := List Host.Cell

/-- The canonical form: addresses strictly rising. (No entry can equal what an unlisted address reads as, since that is no
value.) -/
abbrev Memory.wf (m : Memory) : Prop := List.Pairwise (fun a b : Host.Cell => a.1 < b.1) m

/-- The host's input transaction `(MBASE, MLEN)` (R253). -/
structure Transaction where
  base : Addr
  len : Offset
deriving DecidableEq, Repr

/-- The widths of the reader, `n` ∈ {1, 2, 4} bytes (R100). There is no fourth: `WSEL` = 3 "is not a legal value and no unit
of the block drives it" (R104). -/
inductive ReadWidth where
  | one
  | two
  | four
deriving DecidableEq, Repr

/-- A call of the reader unit: its width and its offset (R104: "a model that takes `n` directly has no `WSEL`"). -/
structure ReaderCall where
  width : ReadWidth
  off : Offset
deriving DecidableEq, Repr

/-- What the reader unit last returned to its caller (R101, R102). -/
inductive ReadOut where
  | none
  | u8 (v : Byte)
  | u16 (v : U16)
  | u32 (v : U32)
  | outOfBounds
deriving DecidableEq, Repr

/-- The state of the block. -/
structure State where
  /-- `CFG` (R35): hardwired; no step writes it (R21). -/
  cfg : Cfg
  /-- The buffer memory at absolute addresses: `M[i]` is at `MBASE + i` (R50). -/
  mem : Memory
  /-- The transaction the host presents at the input and the block has not accepted (R253, R258). -/
  port : Option Transaction
  /-- `PHASE` (R22). -/
  phase : Phase
  /-- `MBASE` (R23). -/
  mbase : Addr
  /-- `MLEN` (R23). -/
  mlen : Offset
  /-- `NFR` (R24). -/
  nfr : Byte
  /-- `IDX` (R25). -/
  idx : Byte
  /-- `CUR`, the program counter (R32). -/
  cur : Offset
  /-- `FLEN` (R27). -/
  flen : Byte
  /-- `FOFF` (R27). -/
  foff : Offset
  /-- `TAG` (R28). -/
  tag : Byte
  /-- `POFF` (R28). -/
  poff : Offset
  /-- `PLEN` (R28). -/
  plen : Byte
  /-- `CODE` (R29). -/
  code : U32
  /-- `MS` (R29). -/
  ms : U16
  /-- `FREQ` (R29). -/
  freq : U32
  /-- `ROFF` (R30). -/
  roff : Offset
  /-- `RLEN` (R30). -/
  rlen : Byte
  /-- `NIV` (R30). -/
  niv : BitVec 7
  /-- `PPH` (R31, R196). -/
  pph : PanaPhase
  /-- `PBYTE` (R31). -/
  pbyte : Byte
  /-- `PBIT` (R31). -/
  pbit : BitVec 3
  /-- `SCR` (R37), addresses 0..249. -/
  scr : Memory
  /-- `SCR_VALID` (R37). -/
  scrValid : Bool
  /-- `OUT` (R39), in the order of emission. -/
  out : List Event
  /-- The model's own field (log 5): a call pending at the reader unit's inputs, the width and the offset (R104). -/
  rdCall : Option ReaderCall
  /-- The model's own field (log 5): the value the reader unit returned last. -/
  rdOut : ReadOut
deriving DecidableEq, Repr

/-- Why the machine stops with a fault. -/
inductive Fault where
  /-- A read of a scratch byte that holds no value (U16: a read before a write is a fault in the model; none occurs).
  Raised by the raw builder's scratch path only; unreachable there, because the copy precedes the reads. Safe. -/
  | scratchNoValue
deriving DecidableEq, Repr

/-- Why a step has no meaning: "The only refusals of the model are: an ill-formed configuration (rules R8, R9) and a host that
breaks the duties" (R16). -/
inductive Refusal where
  /-- The instruction is not modelled yet; raised by a refused arm of `exec` only. Safe. -/
  | notModelled (mnemonic : String)
  /-- The configuration breaks R8 (R9, D21: "refused by the model"); raised by every step of such a state. Safe. -/
  | illFormedConfig
  /-- A byte within the accepted message is not in the buffer memory: the host gave an `MLEN` larger than its buffer or
  unmapped it (R259, U15: "refuse"). Raised by any read of the message; for a reader
  call in `IDLE` see log 17. Safe. -/
  | bufferUnreadable
  /-- The presented message passes the end of the address space, `MBASE + MLEN > 2^32` (R64). Raised at acceptance. Safe. -/
  | addressRange
deriving DecidableEq, Repr

/-- The state after reset (R250). The registers for which the spec states "no value" hold zero (log 1), `PPH` its first
phase; the buffer memory and the scratch buffer list nothing. -/
def State.reset : State where
  cfg := Cfg.thisHardware
  mem := []
  port := none
  phase := .idle
  mbase := 0
  mlen := 0
  nfr := 0
  idx := 0
  cur := 0
  flen := 0
  foff := 0
  tag := 0
  poff := 0
  plen := 0
  code := 0
  ms := 0
  freq := 0
  roff := 0
  rlen := 0
  niv := 0
  pph := .hdrMark
  pbyte := 0
  pbit := 0
  scr := []
  scrValid := false
  out := []
  rdCall := none
  rdOut := .none

end Sys2Proof.Machine
end

