-- ==== Sys2Proof/Machine/Flags.lean ====
section
/-! DEFINITION. The block has no condition codes and no frame sets or tests a flag (R34). Its one-bit statuses are `SCR_VALID`,
a field of the state, and `BUSY`, computed here (R22); the input handshake's ready signal is its complement (R253). -/

namespace Sys2Proof.Machine

/-- `BUSY` (R22): the predicate `PHASE = RUN`. -/
def State.busy (s : State) : Bool := s.phase == .run

/-- The ready signal of the input handshake: not `BUSY` (R253). -/
def State.ready (s : State) : Bool := !s.busy

end Sys2Proof.Machine
end

