-- ==== Sys2Proof/Machine/Operands.lean ====
section
/-! DEFINITION. The forms in which operands are read: the assembly of a multi-byte integer (R55, R102), its inverse (R86), the
bounds-checked reader over a buffer (R100, R101), and interval lists (R108, R174). -/

namespace Sys2Proof.Machine

/-- Why a reader operation returns no value. -/
inductive ReadError where
  /-- `ReadOutOfBounds` (R101). -/
  | outOfBounds
  /-- The byte is within bounds and holds no value (the buffer is not what its length says, R259). -/
  | noValue
deriving DecidableEq, Repr

/-- `asm_n` under `LE`: Σ bs[k] × 2^(8k) (R102). -/
def asmLE : List Byte → Nat
  | [] => 0
  | b :: bs => b.toNat + 256 * asmLE bs

/-- `asm_n(bs)` under a byte order (00_scope.md section 5): `BE` weighs the bytes from the other end. -/
def asm (o : ByteOrder) (bs : List Byte) : Nat :=
  match o with
  | .le => asmLE bs
  | .be => asmLE bs.reverse

/-- The `n` bytes of a number, least significant first. -/
def splitLE : Nat → Nat → List Byte
  | 0, _ => []
  | n + 1, v => BitVec.ofNat 8 v :: splitLE n (v / 256)

/-- The `n` bytes of a number under a byte order: how a field is written into a message (R86). -/
def split (o : ByteOrder) (n v : Nat) : List Byte :=
  match o with
  | .le => splitLE n v
  | .be => (splitLE n v).reverse

/-- `WSEL` = log2(`n`) (R104). -/
def ReadWidth.select : ReadWidth → BitVec 2
  | .one => 0
  | .two => 1
  | .four => 2

/-- The width a select stands for; 3 is not a legal value (R104). -/
def ReadWidth.ofSelect (wsel : BitVec 2) : Option ReadWidth :=
  if wsel = 0 then some .one
  else if wsel = 1 then some .two
  else if wsel = 2 then some .four
  else none

/-- `n` bytes read one by one from offset `off` on (R61, R102: no wide access is ever made). -/
def readEach (get : Nat → Option Byte) : Nat → Nat → Except ReadError (List Byte)
  | _, 0 => .ok []
  | off, n + 1 =>
    match get off with
    | none => .error .noValue
    | some b =>
      match readEach get (off + 1) n with
      | .error e => .error e
      | .ok bs => .ok (b :: bs)

/-- R101: the reader's bounds check, in the form that cannot overflow, and then the bytes. A buffer is its size and the
byte at each offset; nothing is read when the check fails. -/
def readBytes (size : Nat) (get : Nat → Option Byte) (off n : Nat) : Except ReadError (List Byte) :=
  if off ≤ size ∧ n ≤ size - off then readEach get off n else .error .outOfBounds

/-- `RD(off, n)` at width `w` = 8`n` bits (R102): unsigned, exactly that wide. -/
def rd (o : ByteOrder) (w : Nat) (size : Nat) (get : Nat → Option Byte) (off : Nat) : Except ReadError (BitVec w) :=
  match readBytes size get off (w / 8) with
  | .error e => .error e
  | .ok bs => .ok (BitVec.ofNat w (asm o bs))

/-- `n` consecutive integers of width `w` from offset `off` on, in ascending offset (R174). -/
def rdSeq (o : ByteOrder) (w : Nat) (size : Nat) (get : Nat → Option Byte) : Nat → Nat → Except ReadError (List (BitVec w))
  | _, 0 => .ok []
  | off, n + 1 =>
    match rd o w size get off with
    | .error e => .error e
    | .ok v =>
      match rdSeq o w size get (off + w / 8) n with
      | .error e => .error e
      | .ok vs => .ok (v :: vs)

/-- The interval list: `RDIW` at each of `n` positions (R108, R174), handed over at its element width. -/
def rdIntervals (c : Cfg) (size : Nat) (get : Nat → Option Byte) (off n : Nat) : Except ReadError Intervals :=
  match c.iwb with
  | .two =>
    match rdSeq c.byteOrder 16 size get off n with
    | .error e => .error e
    | .ok l => .ok (.w16 l)
  | .four =>
    match rdSeq c.byteOrder 32 size get off n with
    | .error e => .error e
    | .ok l => .ok (.w32 l)

/-- The byte of a frame view at an offset from its start: "a view (offset + length, not a copy) into Message" (R27). -/
def viewByte (payload : List Byte) (k : Nat) : Option Byte := payload[k]?

/-- `RD` at width `w` over a handler payload: offset `k` of the view is message offset `POFF + k` (R142). -/
def viewRd (c : Cfg) (w : Nat) (payload : List Byte) (k : Nat) : Except ReadError (BitVec w) :=
  rd c.byteOrder w payload.length (viewByte payload) k

/-- The absolute address of `M[off]` (R50), an unbounded natural (R11). -/
def State.msgAddr (s : State) (off : Nat) : Nat := s.mbase.toNat + off

end Sys2Proof.Machine
end

