-- ==== Sys2Proof/Machine/Ops.lean ====
section
/-! DEFINITION. The named operations over memory and registers that the meanings are written in: memory reads and writes, the
message reader (40_unaligned_reader.md), raising a diagnostic (60_exceptions.md), the frame decoder's register moves
(R121), the dispatcher's (R141), the scratch buffer's (R175 to R178), and the host's interactions (70_reset_and_hazards.md). -/

namespace Sys2Proof.Machine

/-! ### Memory -/

/-- The byte at an address; none where nothing is listed. -/
def Memory.read (m : Memory) (a : Nat) : Option Byte :=
  match m with
  | [] => none
  | (k, v) :: rest => if a = k then some v else if a < k then none else Memory.read rest a

/-- Writes one byte, keeping the canonical form. -/
def Memory.write (m : Memory) (a : Nat) (b : Byte) : Memory :=
  match m with
  | [] => [(a, b)]
  | (k, v) :: rest =>
    if a = k then (a, b) :: rest
    else if a < k then (a, b) :: (k, v) :: rest
    else (k, v) :: Memory.write rest a b

/-- Writes a list of bytes at consecutive addresses, one byte at a time, in ascending order (R176). -/
def Memory.writeBytes (m : Memory) (a : Nat) : List Byte → Memory
  | [] => m
  | b :: bs => Memory.writeBytes (m.write a b) (a + 1) bs

/-! ### The message reader -/

/-- `M[off]`, if the buffer memory holds a byte there (R50). -/
def State.msgByte (s : State) (off : Nat) : Option Byte := s.mem.read (s.msgAddr off)

/-- `RD` at width `w` over the message: bounded by `MLEN` (R101), assembled under `BYTE_ORDER` (R102). -/
def State.msgRd (s : State) (w : Nat) (off : Offset) : Except ReadError (BitVec w) :=
  rd s.cfg.byteOrder w s.mlen.toNat s.msgByte off.toNat

/-- `RD8` of each of `n` bytes of the message from `off` on: the body of a frame. -/
def State.msgBytes (s : State) (off : Offset) (n : Nat) : Except ReadError (List Byte) :=
  readBytes s.mlen.toNat s.msgByte off.toNat n

/-! ### Output and diagnostics -/

/-- `emit e`: appends an event to `OUT`; it completes within the step (R39, R261). -/
def State.emit (e : Event) (s : State) : State := { s with out := s.out ++ [e] }

/-- The numeric code of a diagnostic kind (R210). -/
def DiagKind.code : DiagKind → Nat
  | .frameOverrun => 1
  | .trailingOrTruncatedData => 2
  | .emptyFrame => 3
  | .unexpectedPayloadSize => 4
  | .invalidRawLength => 5
  | .unknownEncoding _ => 6
  | .readOutOfBounds => 7

/-- The two control actions of R210: whether the kind stops the cycle (otherwise it skips one frame). A caller treats
`readOutOfBounds` as a message-level error (R217). -/
def DiagKind.stopsCycle : DiagKind → Bool
  | .frameOverrun => true
  | .trailingOrTruncatedData => true
  | .emptyFrame => false
  | .unexpectedPayloadSize => false
  | .invalidRawLength => false
  | .unknownEncoding _ => false
  | .readOutOfBounds => true

/-- `raise Diag(k)`, the block's one way to take an exception (R221): emits the event and performs the kind's control
action. Skipping a frame leaves the walk as it stands, `CUR` being already at the next length byte (R130); stopping the
cycle sets `PHASE` to `IDLE`. No state is saved and there is no return from it (R223). -/
def State.raiseDiag (k : DiagKind) (s : State) : State :=
  { s with out := s.out ++ [.diag k], phase := if k.stopsCycle then .idle else s.phase }

/-- What a caller does with a reader error: `ReadOutOfBounds` is reported and stops the cycle (R217); a byte without a value
means that the host broke its duty (R259). -/
def State.readFailed (e : ReadError) (s : State) : Host.Outcome State Fault Refusal :=
  match e with
  | .outOfBounds => .next (s.raiseDiag .readOutOfBounds)
  | .noValue => .refused .bufferUnreadable

/-- Which collaborator takes an event (R14). -/
inductive Collaborator where
  | transmitter
  | delayTimer
  | logSink
deriving DecidableEq, Repr

/-- 00_scope.md section 5, the table of events. -/
def Event.collaborator : Event → Collaborator
  | .genericCode _ _ _ => .transmitter
  | .rawIntervals _ _ => .transmitter
  | .rawWaveform _ _ => .transmitter
  | .wait _ => .delayTimer
  | .diag _ => .logSink

/-! ### The frame decoder's register moves (R121) -/

/-- Acceptance of a transaction (R253): latches `MBASE` and `MLEN`, clears `OUT`, enters `RUN`; the input is free again. -/
def State.latch (t : Transaction) (s : State) : State :=
  { s with port := none, phase := .run, out := [], mbase := t.base, mlen := t.len }

/-- After the count byte: `NFR <- N; CUR <- 1; IDX <- 0`. -/
def State.startWalk (n : Byte) (s : State) : State := { s with nfr := n, cur := 1, idx := 0 }

/-- After a length byte: `FLEN <- L; CUR <- CUR + 1`. -/
def State.takeLength (len : Byte) (s : State) : State := { s with flen := len, cur := s.cur + 1 }

/-- Yielding a frame: `FOFF <- CUR; CUR <- CUR + FLEN; IDX <- IDX + 1`. -/
def State.yieldFrame (s : State) : State :=
  { s with foff := s.cur, cur := s.cur + s.flen.setWidth 32, idx := s.idx + 1 }

/-- The end of a cycle: `PHASE <- IDLE` (R133). -/
def State.endCycle (s : State) : State := { s with phase := .idle }

/-! ### The dispatcher's register moves (R141) -/

/-- `TAG <- RD8(FOFF); POFF <- FOFF + 1; PLEN <- FLEN − 1`, of a frame with this tag and payload length. -/
def State.loadTag (tag : Byte) (plen : Nat) (s : State) : State :=
  { s with tag := tag, poff := s.foff + 1, plen := BitVec.ofNat 8 plen }

/-! ### The handlers' register moves (10_state.md section 4) -/

/-- `CODE <- v` (R145). -/
def State.setCode (v : U32) (s : State) : State := { s with code := v }

/-- `MS <- v` (R148). -/
def State.setMs (v : U16) (s : State) : State := { s with ms := v }

/-- `RLEN <- n` (R171). -/
def State.setRlen (n : Nat) (s : State) : State := { s with rlen := BitVec.ofNat 8 n }

/-- `FREQ <- f; ROFF <- POFF + 4; NIV <- RLEN / IWB`, for a remainder of `n` bytes (R171). -/
def State.loadRaw (f : U32) (n : Nat) (s : State) : State :=
  { s with freq := f, roff := s.poff + 4, niv := BitVec.ofNat 7 (n / s.cfg.iwb.bytes) }

/-! ### The reader unit's ports (log 5) -/

/-- The value the reader returns to its caller. -/
def State.setRead (v : ReadOut) (s : State) : State := { s with rdOut := v }

/-- The pending reader call is taken. -/
def State.takeCall (s : State) : State := { s with rdCall := none }

/-! ### The realignment unit (43_raw_waveform.md section 3) -/

/-- R175: the remainder's absolute start address is not a multiple of `IWB`. -/
def State.misaligned (s : State) : Bool := (s.mbase.toNat + s.roff.toNat) % s.cfg.iwb.bytes != 0

/-- R176: a freshly allocated scratch buffer takes the remainder byte by byte; `SCR_VALID <- 1`. -/
def State.copyToScratch (remainder : List Byte) (s : State) : State :=
  { s with scr := Memory.writeBytes [] 0 remainder, scrValid := true }

/-- R178: `SCR_VALID <- 0`; the contents hold no value any more (R37, log 4). -/
def State.releaseScratch (s : State) : State := { s with scr := [], scrValid := false }

/-! ### The host's interactions (70_reset_and_hazards.md section 3). No step of the block calls them. -/

/-- The host presents a message (R253): the bytes readable at `base`, and `(MBASE, MLEN)` at the input. DESIGN CHOICE (log 15):
R258 says that a message presented while `BUSY` waits at the input, and leaves open what a second presentation does while
one waits; here the input shows what the host presented last, and the waiting transaction is replaced. Unsafe. -/
def State.present (base : Addr) (bytes : List Byte) (s : State) : State :=
  { s with mem := s.mem.writeBytes base.toNat bytes, port := some ⟨base, BitVec.ofNat 32 bytes.length⟩ }

/-- A reset asserted by the surrounding system (R250, R251): the reset state at once; `CFG` and the host's buffer and
presented transaction are not the block's to clear, and the events already emitted in a running cycle stand (log 10). -/
def State.assertReset (s : State) : State :=
  { State.reset with
    cfg := s.cfg, mem := s.mem, port := s.port,
    out := match s.phase with
      | .run => s.out
      | .idle => [] }

end Sys2Proof.Machine
end

