-- ==== Sys2Proof/Machine/Frames.lean ====
section
/-! DEFINITION. The meanings of the frame kinds the dispatcher settles itself: `EMPTY`, `STD`, `DELAY`, `UNKNOWN`
(42_dispatcher.md). Each stands at the point where the frame decoder has yielded the frame: `FOFF` and `FLEN` are set and
`CUR` is past the frame (R130). The operand `payload` is the frame's view of the message, the bytes `M[POFF ..+ PLEN]`. -/

namespace Sys2Proof.Machine

/-- `EMPTY` (R143): reports `EmptyFrame`; no tag is read and no register written. -/
def execEmpty (s : State) : Host.Outcome State Fault Refusal :=
  .next (s.raiseDiag .emptyFrame)

/-- `STD` (R145, R147): a payload of exactly 4 bytes is sent as a 32-bit code under the tag itself (R85, R146); any other
length is `UnexpectedPayloadSize`. -/
def execStd (tag : Byte) (payload : List Byte) (s : State) : Host.Outcome State Fault Refusal :=
  let s1 := s.loadTag tag payload.length
  if payload.length ≠ 4 then .next (s1.raiseDiag .unexpectedPayloadSize)
  else
    match viewRd s.cfg 32 payload 0 with
    | .error e => s1.readFailed e
    | .ok code => .next ((s1.setCode code).emit (.genericCode tag code 32))

/-- `DELAY` (R148, R149): a payload of exactly 2 bytes is a wait of that many milliseconds, 0 included (R150); any other
length is `UnexpectedPayloadSize`. -/
def execDelay (payload : List Byte) (s : State) : Host.Outcome State Fault Refusal :=
  let s1 := s.loadTag s.cfg.tagDelay payload.length
  if payload.length ≠ 2 then .next (s1.raiseDiag .unexpectedPayloadSize)
  else
    match viewRd s.cfg 16 payload 0 with
    | .error e => s1.readFailed e
    | .ok ms => .next ((s1.setMs ms).emit (.wait ms))

/-- `UNKNOWN` (R151): reports `UnknownEncoding(TAG)`; the payload is not looked at, whatever its length. -/
def execUnknown (tag : Byte) (payload : List Byte) (s : State) : Host.Outcome State Fault Refusal :=
  .next ((s.loadTag tag payload.length).raiseDiag (.unknownEncoding tag))

end Sys2Proof.Machine
end

