-- ==== Sys2Proof/Machine/Panasonic.lean ====
section
/-! DEFINITION. The Panasonic bitstream-to-pulse encoder (44_panasonic_encoder.md): the durations, the pulse list as R193's
loop gives it, the state machine of R196, and the meaning of `PANA`, which runs the state machine. -/

namespace Sys2Proof.Machine

/-! ### Durations (R191): ticks × `TICK` -/

/-- `HDR_MARK`. -/
def hdrMark (c : Cfg) : U32 := c.hdrMarkTicks * c.tick

/-- `HDR_SPACE`. -/
def hdrSpace (c : Cfg) : U32 := c.hdrSpaceTicks * c.tick

/-- `BIT_MARK`. -/
def bitMark (c : Cfg) : U32 := c.bitMarkTicks * c.tick

/-- `ONE_SPACE` or `ZERO_SPACE`, by the data bit. -/
def bitSpace (c : Cfg) (bit : Bool) : U32 :=
  if bit then c.oneSpaceTicks * c.tick else c.zeroSpaceTicks * c.tick

/-! ### The pulse list (R193) -/

/-- One data bit: a mark and a space. -/
def bitPulses (c : Cfg) (bit : Bool) : List Pulse := [⟨true, bitMark c⟩, ⟨false, bitSpace c bit⟩]

/-- One byte, bit 0 first (R192). -/
def bytePulses (c : Cfg) (b : Byte) : List Pulse :=
  (List.range 8).flatMap fun j => bitPulses c (b.getLsbD j)

/-- `PanaPulses(bs)` (R193): header, bytes in order, trailer. -/
def panaPulses (c : Cfg) (bs : List Byte) : List Pulse :=
  [⟨true, hdrMark c⟩, ⟨false, hdrSpace c⟩] ++ bs.flatMap (bytePulses c) ++ [⟨true, bitMark c⟩, ⟨false, 0⟩]

/-! ### The state machine (R196) -/

/-- The registers of the encoder: `PPH`, `PBYTE`, `PBIT`. -/
structure PanaRegs where
  pph : PanaPhase
  pbyte : Byte
  pbit : BitVec 3
deriving DecidableEq, Repr

/-- R196, the entry row. -/
def PanaRegs.entry : PanaRegs := ⟨.hdrMark, 0, 0⟩

/-- One move of the machine. -/
inductive PanaMove where
  | pulse (p : Pulse) (r : PanaRegs)
  | finished
  | failed (e : ReadError)
deriving DecidableEq, Repr

/-- R196, the next state after a data space: the next bit, the next byte, or the trailer; `n` = `PLEN`. -/
def PanaRegs.afterBit (n : Nat) (r : PanaRegs) : PanaRegs :=
  if r.pbit.toNat < 7 then ⟨.bitMark, r.pbyte, r.pbit + 1⟩
  else if r.pbyte.toNat < n - 1 then ⟨.bitMark, r.pbyte + 1, 0⟩
  else ⟨.trailMark, r.pbyte, r.pbit⟩

/-- R196, one row of the table. -/
def panaStep (c : Cfg) (payload : List Byte) (r : PanaRegs) : PanaMove :=
  match r.pph with
  | .hdrMark => .pulse ⟨true, hdrMark c⟩ { r with pph := .hdrSpace }
  | .hdrSpace => .pulse ⟨false, hdrSpace c⟩ { r with pph := if payload.length > 0 then .bitMark else .trailMark }
  | .bitMark => .pulse ⟨true, bitMark c⟩ { r with pph := .bitSpace }
  | .bitSpace =>
    match viewRd c 8 payload r.pbyte.toNat with
    | .error e => .failed e
    | .ok b => .pulse ⟨false, bitSpace c (b.getLsbD r.pbit.toNat)⟩ (r.afterBit payload.length)
  | .trailMark => .pulse ⟨true, bitMark c⟩ { r with pph := .trailSpace }
  | .trailSpace => .pulse ⟨false, 0⟩ { r with pph := .done }
  | .done => .finished

/-- Runs the machine until `P_DONE` and collects its pulses; `fuel` bounds the number of moves. -/
def panaRun (c : Cfg) (payload : List Byte) : Nat → PanaRegs → Except ReadError (List Pulse × PanaRegs)
  | 0, r => .ok ([], r)
  | fuel + 1, r =>
    match panaStep c payload r with
    | .finished => .ok ([], r)
    | .failed e => .error e
    | .pulse p r1 =>
      match panaRun c payload fuel r1 with
      | .error e => .error e
      | .ok (ps, r2) => .ok (p :: ps, r2)

/-- Enough moves for a payload of `n` bytes: its 16 × `n` + 4 pulses (R194) and the terminal state. -/
def panaFuel (n : Nat) : Nat := 16 * n + 5

/-- The encoder's registers as the machine leaves them. -/
def State.loadPana (r : PanaRegs) (s : State) : State :=
  { s with pph := r.pph, pbyte := r.pbyte, pbit := r.pbit }

/-- `PANA` (R193): any payload length is legal; one `Tx.RawWaveform` at 36700 Hz (R199) with the pulses of the machine, and
no gap after it (R200). -/
def execPana (payload : List Byte) (s : State) : Host.Outcome State Fault Refusal :=
  let s1 := s.loadTag s.cfg.tagPana payload.length
  match panaRun s.cfg payload (panaFuel payload.length) PanaRegs.entry with
  | .error e => s1.readFailed e
  | .ok (ps, r) => .next ((s1.loadPana r).emit (.rawWaveform s.cfg.panaFreq ps))

end Sys2Proof.Machine
end

