-- ==== Sys2Proof/Machine/RawWaveform.lean ====
section
/-! DEFINITION. The raw waveform builder and its realignment unit: the meaning of `RAW` (43_raw_waveform.md). -/

namespace Sys2Proof.Machine

/-- The intervals of a remainder of `rlen > 0` bytes read from the scratch buffer after the copy (R109, R176), then the
emission and the release (R178: on every exit path). -/
def rawViaScratch (payload : List Byte) (rlen : Nat) (s : State) : Host.Outcome State Fault Refusal :=
  let s1 := s.copyToScratch (payload.drop 4)
  match rdIntervals s.cfg rlen (Memory.read s1.scr) 0 (rlen / s.cfg.iwb.bytes) with
  | .ok ivs => .next (s1.emit (.rawIntervals s.freq ivs)).releaseScratch
  | .error .noValue => .fault .scratchNoValue
  | .error .outOfBounds => .next (s1.releaseScratch.raiseDiag .readOutOfBounds)

/-- The intervals read in place (the other branch of R171), then the emission and the release. -/
def rawInPlace (payload : List Byte) (rlen : Nat) (s : State) : Host.Outcome State Fault Refusal :=
  match rdIntervals s.cfg payload.length (viewByte payload) 4 (rlen / s.cfg.iwb.bytes) with
  | .ok ivs => .next (s.emit (.rawIntervals s.freq ivs)).releaseScratch
  | .error e => s.readFailed e

/-- `RAW` (R171, R172): the shape check before any read of the payload, the frequency, the alignment test of the remainder's
absolute address (R175; nothing is copied when the remainder is empty), and one `Tx.RawIntervals`. -/
def execRaw (payload : List Byte) (s : State) : Host.Outcome State Fault Refusal :=
  let s1 := s.loadTag s.cfg.tagRaw payload.length
  if payload.length < 4 then .next (s1.raiseDiag .invalidRawLength)
  else
    let rlen := payload.length - 4
    let s2 := s1.setRlen rlen
    if rlen % s.cfg.iwb.bytes ≠ 0 then .next (s2.raiseDiag .invalidRawLength)
    else
      match viewRd s.cfg 32 payload 0 with
      | .error e => s2.readFailed e
      | .ok f =>
        let s3 := s2.loadRaw f rlen
        if s3.misaligned = true ∧ 0 < rlen then rawViaScratch payload rlen s3
        else rawInPlace payload rlen s3

end Sys2Proof.Machine
end

