-- ==== Sys2Proof/Machine/Reader.lean ====
section
/-! DEFINITION. The meanings of the reader operations (40_unaligned_reader.md). A reader operation writes no register of the
block, emits nothing and leaves the message alone (R103); what it returns to its caller stands in the model's own field
`rdOut` (log 5). -/

namespace Sys2Proof.Machine

/-- What the reader returns: a value, or `ReadOutOfBounds` with no byte read (R101). -/
def State.returnRead (r : Except ReadError ReadOut) (s : State) : Host.Outcome State Fault Refusal :=
  match r with
  | .ok v => .next (s.setRead v)
  | .error .outOfBounds => .next (s.setRead .outOfBounds)
  | .error .noValue => .refused .bufferUnreadable

/-- `RD8` (R105). -/
def State.rd8 (s : State) (off : Offset) : Except ReadError ReadOut :=
  match s.msgRd 8 off with
  | .error e => .error e
  | .ok v => .ok (.u8 v)

/-- `RD16` (R106). -/
def State.rd16 (s : State) (off : Offset) : Except ReadError ReadOut :=
  match s.msgRd 16 off with
  | .error e => .error e
  | .ok v => .ok (.u16 v)

/-- `RD32` (R107). -/
def State.rd32 (s : State) (off : Offset) : Except ReadError ReadOut :=
  match s.msgRd 32 off with
  | .error e => .error e
  | .ok v => .ok (.u32 v)

/-- `RDIW` (R108): `RD16` when `IWB` = 2, `RD32` when `IWB` = 4. -/
def State.rdiw (s : State) (off : Offset) : Except ReadError ReadOut :=
  match s.cfg.iwb with
  | .two => s.rd16 off
  | .four => s.rd32 off

/-- The meaning of `RD8`. -/
def execRd8 (off : Offset) (s : State) : Host.Outcome State Fault Refusal := s.returnRead (s.rd8 off)

/-- The meaning of `RD16`. -/
def execRd16 (off : Offset) (s : State) : Host.Outcome State Fault Refusal := s.returnRead (s.rd16 off)

/-- The meaning of `RD32`. -/
def execRd32 (off : Offset) (s : State) : Host.Outcome State Fault Refusal := s.returnRead (s.rd32 off)

/-- The meaning of `RDIW`. -/
def execRdiw (off : Offset) (s : State) : Host.Outcome State Fault Refusal := s.returnRead (s.rdiw off)

end Sys2Proof.Machine
end

