-- ==== Sys2Proof/Machine/Dispatch.lean ====
section
/-! DEFINITION. The dispatch of an instruction to its meaning (R141; R105 to R108 for the reader operations). -/

namespace Sys2Proof.Machine

def exec (i : Instr) (s : State) : Host.Outcome State Fault Refusal :=
  match i with
  | .empty => Sys2Proof.Machine.execEmpty s
  | .std tag payload => Sys2Proof.Machine.execStd tag payload s
  | .delay payload => Sys2Proof.Machine.execDelay payload s
  | .raw payload => Sys2Proof.Machine.execRaw payload s
  | .pana payload => Sys2Proof.Machine.execPana payload s
  | .unknown tag payload => Sys2Proof.Machine.execUnknown tag payload s
  | .rd8 off => Sys2Proof.Machine.execRd8 off s
  | .rd16 off => Sys2Proof.Machine.execRd16 off s
  | .rd32 off => Sys2Proof.Machine.execRd32 off s
  | .rdiw off => Sys2Proof.Machine.execRdiw off s

end Sys2Proof.Machine
end

