-- ==== Sys2Proof/Machine/Sequencer.lean ====
section
/-! DEFINITION. The frame decoder (41_frame_decoder.md): the moves of `Cycle` (R121), each of which is one step of the machine.
Acceptance with the count byte is one step; each turn of the loop, from the length byte to the end of the frame's dispatch,
is one step; the tail check is the last. -/

namespace Sys2Proof.Machine

/-- Acceptance of a presented transaction and the count byte (R253, R121). A message past the end of the address space
is the host's breach (R64). An empty message is truncated before its count (R125). -/
def State.accept (t : Transaction) (s : State) : Host.Outcome State Fault Refusal :=
  if 2 ^ 32 < t.base.toNat + t.len.toNat then .refused .addressRange
  else
    let s1 := s.latch t
    if t.len = 0 then .next (s1.raiseDiag .trailingOrTruncatedData)
    else
      match s1.msgRd 8 0 with
      | .error e => s1.readFailed e
      | .ok n => .next (s1.startWalk n)

/-- After all frames (R127): left-over bytes are reported; the cycle ends either way (R133). -/
def State.tailCheck (s : State) : Host.Outcome State Fault Refusal :=
  if s.cur ≠ s.mlen then .next (s.raiseDiag .trailingOrTruncatedData) else .next s.endCycle

/-- The rest of a turn of the loop once the length byte is in `FLEN` and `CUR` past it: the overrun check (R124, as a
comparison with `MLEN − CUR`), the yield, and the dispatch of the frame. -/
def State.takeFrame (s : State) : Host.Outcome State Fault Refusal :=
  if s.mlen - s.cur < s.flen.setWidth 32 then .next (s.raiseDiag .frameOverrun)
  else
    match s.msgBytes s.cur s.flen.toNat with
    | .error e => s.readFailed e
    | .ok body => exec (decodeBody s.cfg body) s.yieldFrame

/-- One turn of the loop of R121: the missing length byte (R126), the length byte, and the frame. -/
def State.frameStep (s : State) : Host.Outcome State Fault Refusal :=
  if s.cur = s.mlen then .next (s.raiseDiag .trailingOrTruncatedData)
  else
    match s.msgRd 8 s.cur with
    | .error e => s.readFailed e
    | .ok len => (s.takeLength len).takeFrame

/-- The operation a reader call asks for (R105 to R107). -/
def ReaderCall.instr (call : ReaderCall) : Instr :=
  match call.width with
  | .one => .rd8 call.off
  | .two => .rd16 call.off
  | .four => .rd32 call.off

/-- A pending reader call runs as its instruction, whatever `PHASE` is (logs 5, 17). -/
def State.readerStep (call : ReaderCall) (s : State) : Host.Outcome State Fault Refusal :=
  exec call.instr s.takeCall

/-- One step of the block. An ill-formed configuration is refused (R9, D21). In `IDLE` a presented message is accepted; with
none presented the block rests (R236). In `RUN` the walk goes on; nothing is taken from the input (R258).

DESIGN CHOICE (log 17): a reader call may also be pending in `IDLE`, where no message is owned and `MBASE` and `MLEN` have no
value (R20, R250); the spec does not say what it returns. Here it runs before a presented message is accepted, over the
`MBASE` and `MLEN` the state holds: those of the last cycle, or 0 after reset (log 1), where every offset is
`ReadOutOfBounds`. Unsafe. -/
def State.blockStep (s : State) : Host.Outcome State Fault Refusal :=
  if s.cfg.wf = false then .refused .illFormedConfig
  else
    match s.rdCall with
    | some call => s.readerStep call
    | none =>
      match s.phase with
      | .idle =>
        match s.port with
        | none => .next s
        | some t => s.accept t
      | .run => if s.idx = s.nfr then s.tailCheck else s.frameStep

/-- Places one encoded instruction where the next step takes it (log 9): a reader call at the reader's inputs (none for
the illegal select 3, which decodes to no instruction); a frame as
the only frame of a message at address 0, accepted and with its count byte read. -/
def State.placeInstr (e : Encoded) (s : State) : State :=
  match e with
  | .call wsel off => { s with rdCall := (ReadWidth.ofSelect wsel).map fun w => ⟨w, off⟩ }
  | .frame bytes =>
    { s with
      mem := s.mem.writeBytes 0 (1 :: bytes)
      rdCall := none
      phase := .run
      out := []
      mbase := 0
      mlen := BitVec.ofNat 32 (bytes.length + 1)
      nfr := 1
      idx := 0
      cur := 1 }

end Sys2Proof.Machine
end

