-- ==== Sys2Proof/Machine/Step.lean ====
section
/-! DEFINITION. The step function, and the placing of a table word where the step takes its next instruction. -/

namespace Sys2Proof.Machine

/-- One step of the machine. -/
def step (s : State) : Host.Outcome State Fault Refusal := s.blockStep

/-- The state with the instruction of a table word placed so that the very next step runs it (log 9). -/
def State.withFetchWord (s : State) (nbits w : Nat) : State := s.placeInstr (tableEncoded s.cfg nbits w)

end Sys2Proof.Machine
end

