-- ==== Sys2Proof/Machine/BigStep.lean ====
section
/-! DEFINITION. The big-step reading of the spec: `OUT` of one cycle computed directly from `CFG` and the message bytes by the
pseudocode of R121, R141, R145, R148, R171 and R193 ("a big-step model ... is equally faithful", 10_state.md). It names no
register, no address and no scratch buffer; the machine is stated equal to it. -/

namespace Sys2Proof.Machine

/-- The intervals of a remainder, read in place (the `else` branch of R171, R177). -/
def remainderIntervals (c : Cfg) (remainder : List Byte) : Intervals :=
  let at_ (i : Nat) : Nat := asm c.byteOrder ((remainder.drop (c.iwb.bytes * i)).take c.iwb.bytes)
  match c.iwb with
  | .two => .w16 ((List.range (remainder.length / 2)).map fun i => BitVec.ofNat 16 (at_ i))
  | .four => .w32 ((List.range (remainder.length / 4)).map fun i => BitVec.ofNat 32 (at_ i))

/-- The one event of a Raw frame (R171). -/
def rawEvent (c : Cfg) (payload : List Byte) : Event :=
  if payload.length < 4 ∨ (payload.length - 4) % c.iwb.bytes ≠ 0 then .diag .invalidRawLength
  else .rawIntervals (BitVec.ofNat 32 (asm c.byteOrder (payload.take 4))) (remainderIntervals c (payload.drop 4))

/-- The one event of an instruction that is a frame (R161); a reader operation has none. -/
def instrEvent (c : Cfg) : Instr → List Event
  | .empty => [.diag .emptyFrame]
  | .std tag p =>
    if p.length ≠ 4 then [.diag .unexpectedPayloadSize]
    else [.genericCode tag (BitVec.ofNat 32 (asm c.byteOrder p)) 32]
  | .delay p =>
    if p.length ≠ 2 then [.diag .unexpectedPayloadSize]
    else [.wait (BitVec.ofNat 16 (asm c.byteOrder p))]
  | .raw p => [rawEvent c p]
  | .pana p => [.rawWaveform c.panaFreq (panaPulses c p)]
  | .unknown tag _ => [.diag (.unknownEncoding tag)]
  | .rd8 _ => []
  | .rd16 _ => []
  | .rd32 _ => []
  | .rdiw _ => []

/-- The walk of R121 with `n` frames still due over the bytes not yet read. -/
def bigWalk (c : Cfg) : Nat → List Byte → List Event
  | 0, rest => if rest = [] then [] else [.diag .trailingOrTruncatedData]
  | _ + 1, [] => [.diag .trailingOrTruncatedData]
  | n + 1, len :: rest =>
    if rest.length < len.toNat then [.diag .frameOverrun]
    else instrEvent c (decodeBody c (rest.take len.toNat)) ++ bigWalk c n (rest.drop len.toNat)

/-- `OUT` of the cycle of a message (R121). -/
def bigCycle (c : Cfg) : List Byte → List Event
  | [] => [.diag .trailingOrTruncatedData]
  | count :: rest => bigWalk c count.toNat rest

end Sys2Proof.Machine
end

