-- ==== Sys2Proof/Machine/Assembler.lean ====
section
/-! DEFINITION. The message notation (R86): frame lines between `MSG` and `END`, with the directives `.count`, `.len` and
`.bytes`, and the bytes they assemble to under a configuration. -/

namespace Sys2Proof.Machine

/-- A frame line. -/
inductive Line where
  /-- `STD t, c`. -/
  | std (tag : Byte) (code : U32)
  /-- `DELAY ms`. -/
  | delay (ms : U16)
  /-- `RAW f, [i0, i1, …]`. -/
  | raw (freq : U32) (ivs : List Nat)
  /-- `PANA [b0, b1, …]`. -/
  | pana (bytes : List Byte)
  /-- `.body b0 b1 …`: the first byte is the tag. -/
  | body (bytes : List Byte)
  /-- `.empty`. -/
  | empty
deriving DecidableEq, Repr

/-- A frame line with the `.len` override that may stand before it. -/
structure Entry where
  line : Line
  len : Option Byte := none
deriving DecidableEq, Repr

/-- `MSG … END`, with the `.count` override and the `.bytes` after the last frame. -/
structure Source where
  entries : List Entry
  count : Option Byte := none
  trailing : List Byte := []
deriving DecidableEq, Repr

/-- What a line emits after its automatic `len` byte (R86). -/
def Line.bodyBytes (c : Cfg) : Line → List Byte
  | .std tag code => tag :: split c.byteOrder 4 code.toNat
  | .delay ms => c.tagDelay :: split c.byteOrder 2 ms.toNat
  | .raw freq ivs => c.tagRaw :: (split c.byteOrder 4 freq.toNat ++ ivs.flatMap (split c.byteOrder c.iwb.bytes))
  | .pana bytes => c.tagPana :: bytes
  | .body bytes => bytes
  | .empty => []

/-- The lines a frame can carry: `STD`'s tag is a standard tag (R86), an interval fits its width, and the body fits the
length byte (R72). -/
def Line.wf (c : Cfg) (l : Line) : Bool :=
  (match l with
    | .std tag _ => c.inStdSet tag
    | .raw _ ivs => ivs.all fun v => decide (v < 2 ^ c.iwb.bits)
    | .delay _ => true
    | .pana _ => true
    | .body _ => true
    | .empty => true) && decide ((l.bodyBytes c).length ≤ 255)

/-- The bytes of one line. -/
def Entry.assemble (c : Cfg) (e : Entry) : List Byte :=
  e.len.getD (BitVec.ofNat 8 (e.line.bodyBytes c).length) :: e.line.bodyBytes c

/-- The bytes of a message. -/
def Source.assemble (c : Cfg) (m : Source) : List Byte :=
  m.count.getD (BitVec.ofNat 8 m.entries.length) :: (m.entries.flatMap (Entry.assemble c) ++ m.trailing)

/-- The event a line is written for. -/
def Line.event (c : Cfg) : Line → List Event
  | .std tag code => [.genericCode tag code 32]
  | .delay ms => [.wait ms]
  | .raw freq ivs =>
    match c.iwb with
    | .two => [.rawIntervals freq (.w16 (ivs.map (BitVec.ofNat 16)))]
    | .four => [.rawIntervals freq (.w32 (ivs.map (BitVec.ofNat 32)))]
  | .pana bytes => [.rawWaveform c.panaFreq (panaPulses c bytes)]
  | .body bytes => instrEvent c (decodeBody c bytes)
  | .empty => [.diag .emptyFrame]

end Sys2Proof.Machine
end

