-- ==== Sys2Proof/Safety.lean ====
section
/-! DEFINITION. What the statements say of states and runs: runs of steps, what it means that the buffer holds a message, and
the invariant of the machine. -/

namespace Sys2Proof

/-- The instruction is a frame of the message (R80), not a reader operation. -/
def Instr.isFrame : Instr → Bool
  | .empty => true
  | .std _ _ => true
  | .delay _ => true
  | .raw _ => true
  | .pana _ => true
  | .unknown _ _ => true
  | .rd8 _ => false
  | .rd16 _ => false
  | .rd32 _ => false
  | .rdiw _ => false

namespace Machine

/-- `k` steps; stops at the first fault or refusal. -/
def runSteps : Nat → State → Host.Outcome State Fault Refusal
  | 0, s => .next s
  | k + 1, s =>
    match step s with
    | .next t => runSteps k t
    | .fault f => .fault f
    | .refused r => .refused r

/-- Every byte of the accepted message is in the buffer memory (the host's duty, R259). -/
abbrev State.readable (s : State) : Prop := ∀ k < s.mlen.toNat, (s.msgByte k).isSome = true

/-- The buffer memory holds `bytes` from address `a` on. -/
abbrev Memory.holds (m : Memory) (a : Nat) (bytes : List Byte) : Prop := ∀ k < bytes.length, m.read (a + k) = bytes[k]?

/-- A message lies ready at the input of an idle block: presented, in range (R64), and held by the buffer memory. -/
structure State.offered (base : Addr) (bytes : List Byte) (s : State) : Prop where
  idle : s.phase = .idle
  noCall : s.rdCall = none
  presented : s.port = some ⟨base, BitVec.ofNat 32 bytes.length⟩
  lengthFits : bytes.length < 2 ^ 32
  inRange : base.toNat + bytes.length ≤ 2 ^ 32
  held : s.mem.holds base.toNat bytes

/-- The invariant of the machine between steps. -/
structure State.Inv (s : State) : Prop where
  /-- The buffer memory is in its canonical form (log 3). -/
  memWf : s.mem.wf
  /-- It lies within the 32-bit address space (R64). -/
  memRange : ∀ c ∈ s.mem, c.1 < 2 ^ 32
  /-- The latched message does, too (R64). -/
  msgRange : s.mbase.toNat + s.mlen.toNat ≤ 2 ^ 32
  /-- No scratch buffer is held between frames (R178, R264). -/
  scrReleased : s.scrValid = false ∧ s.scr = []
  /-- R33, R131: the cursor stays inside the message, past the count byte. -/
  curInside : s.phase = .run → 1 ≤ s.cur.toNat ∧ s.cur.toNat ≤ s.mlen.toNat
  /-- R25: the frames yielded never exceed the count. -/
  idxLe : s.phase = .run → s.idx.toNat ≤ s.nfr.toNat
  /-- R130, R131: the frame yielded last ends at the cursor. -/
  frameInside : s.phase = .run → 0 < s.idx.toNat → s.foff.toNat + s.flen.toNat = s.cur.toNat
  /-- R161: one event per frame dispatched; a walk that goes on has no message-level diagnostic. -/
  outCount : s.phase = .run → s.out.length = s.idx.toNat
  /-- R28: 0..254. -/
  plenLe : s.plen.toNat ≤ 254
  /-- R30. -/
  rlenLe : s.rlen.toNat ≤ 250
  /-- R30: at most 125 intervals of 2 bytes, or 62 of 4. -/
  nivLe : s.niv.toNat ≤ 250 / s.cfg.iwb.bytes
  /-- R196. -/
  pbyteLe : s.pbyte.toNat ≤ 253

end Machine

end Sys2Proof
end

