-- ==== Sys2Proof/Certificates/Slice0/Obligations.lean ====
section
/-! DEFINITION. The statements for the provers. They quantify over every configuration `s.cfg` unless they ask for R8's
constraint (`Cfg.wf`), so they hold for either byte order, either interval width and every standard tag set. -/

open Sys2Proof Sys2Proof.Machine

/-! ### Reset and configuration -/

/-- R250's stated values (70_reset_and_hazards.md section 1): `PHASE` = `IDLE`, `SCR_VALID` = 0, `OUT` empty, `CFG` its
constant; and with nothing presented the block rests (R236). The zero of the registers the spec gives no value is the
model's choice (log 1) and is not stated here. -/
def Obligations.ResetIsIdleWithNothingEmitted : Prop :=
  State.reset.phase = .idle ∧ State.reset.busy = false ∧ State.reset.scrValid = false ∧ State.reset.out = [] ∧
    State.reset.cfg = Cfg.thisHardware ∧ step State.reset = .next State.reset

/-- The invariant holds after reset. -/
def Obligations.ResetMeetsTheInvariant : Prop := State.reset.Inv

/-- Every step that goes on keeps the invariant: the canonical memory, the cursor inside the message (R33, R131), the frame
count (R25), the yielded frame ending at the cursor (R130), one event per dispatched frame (R161), the scratch buffer
released (R178, R264), and the register bounds (R28, R30, R196). -/
def Obligations.StepKeepsTheInvariant : Prop :=
  ∀ s t : State, s.Inv → step s = .next t → t.Inv

/-- R251: a reset during a cycle gives the reset state at once; `CFG`, the host's buffer and the events already emitted
stand (that the presented transaction stands too is the model's choice, log 10). The result meets the invariant. -/
def Obligations.HostResetDuringACycle : Prop :=
  ∀ s : State, s.Inv → s.phase = .run →
    s.assertReset = { State.reset with cfg := s.cfg, mem := s.mem, port := s.port, out := s.out } ∧ s.assertReset.Inv

/-- R8, R9: a configuration whose custom tags are not three distinct bytes of 239..255 is refused, whatever the state (that
every step refuses it is the model's form of the refusal, log 12). -/
def Obligations.IllFormedConfigurationIsRefused : Prop :=
  ∀ s : State,
    (s.cfg.tagDelay.toNat < 239 ∨ s.cfg.tagRaw.toNat < 239 ∨ s.cfg.tagPana.toNat < 239 ∨
      s.cfg.tagDelay = s.cfg.tagRaw ∨ s.cfg.tagDelay = s.cfg.tagPana ∨ s.cfg.tagRaw = s.cfg.tagPana) →
    step s = .refused .illFormedConfig

/-- R144: the classification of a tag, each class by its own test, so that the order of the tests cannot matter. It reads
the tag and the configuration and nothing else. -/
def Obligations.TagClassesAreDecidedByTheTagAlone : Prop :=
  ∀ (c : Cfg) (t : Byte), c.wf = true →
    (c.classify t = .standard ↔ c.inStdSet t = true) ∧
    (c.classify t = .delay ↔ t = c.tagDelay) ∧
    (c.classify t = .raw ↔ t = c.tagRaw) ∧
    (c.classify t = .panasonicRaw ↔ t = c.tagPana) ∧
    (c.classify t = .unrecognized ↔
      c.inStdSet t = false ∧ t ≠ c.tagDelay ∧ t ≠ c.tagRaw ∧ t ≠ c.tagPana)

/-! ### Encoding -/

/-- Decoding what the encoder writes gives the instruction back, with every payload byte and offset, for every well-formed
instruction; bytes after a frame are left over. `RDIW` has no width select of its own (R108): it decodes to `RD16` or
`RD32`. -/
def Obligations.DecodeOfEncodeIsTheInstruction : Prop :=
  ∀ (c : Cfg) (i : Instr), c.wf = true → i.wf c = true →
    match encode c i with
    | .frame bytes => ∀ rest, decode c (.frame (bytes ++ rest)) = .ok i rest
    | .call wsel off =>
      decode c (.call wsel off) =
        match i with
        | .rdiw o => .ok (if c.iwb = .two then .rd16 o else .rd32 o) []
        | _ => .ok i []

/-- The other direction: bytes that decode are the encoding of the well-formed frame they decode to, followed by what is
left over. Every frame has one encoding. -/
def Obligations.EncodeOfDecodeIsTheBytes : Prop :=
  ∀ (c : Cfg) (bytes rest : List Byte) (i : Instr), c.wf = true → decode c (.frame bytes) = .ok i rest →
    i.wf c = true ∧ i.isFrame = true ∧ ∃ enc, encode c i = .frame enc ∧ bytes = enc ++ rest

/-- R72, R73, R82: bytes are rejected exactly when they end before the body their length byte announces; no tag is
rejected. -/
def Obligations.DecodeRejectsOnlyCutFrames : Prop :=
  ∀ (c : Cfg) (bytes : List Byte),
    ((∃ e, decode c (.frame bytes) = .error e) ↔
      bytes = [] ∨ ∃ len rest, bytes = len :: rest ∧ rest.length < len.toNat)

/-- Frames written out byte by byte from R74 to R79 and R87, under the configuration of this hardware with tag 3 standard:
they decode to the instructions they stand for. -/
def Obligations.SpecFramesDecode : Prop :=
  let c : Cfg := { Cfg.thisHardware with stdTagSet := 8 }
  decode c (.frame [0x00]) = .ok .empty [] ∧
  decode c (.frame [0x05, 0x03, 0xEF, 0xBE, 0xAD, 0xDE]) = .ok (.std 0x03 [0xEF, 0xBE, 0xAD, 0xDE]) [] ∧
  decode c (.frame [0x03, 0xEF, 0xE8, 0x03]) = .ok (.delay [0xE8, 0x03]) [] ∧
  decode c (.frame [0x0B, 0xF0, 0x70, 0x94, 0x00, 0x00, 0x84, 0x03, 0xC2, 0x01, 0x84, 0x03]) =
    .ok (.raw [0x70, 0x94, 0x00, 0x00, 0x84, 0x03, 0xC2, 0x01, 0x84, 0x03]) [] ∧
  decode c (.frame [0x02, 0xF1, 0x01, 0xAA]) = .ok (.pana [0x01]) [0xAA] ∧
  decode c (.frame [0x02, 0xEE, 0x00]) = .ok (.unknown 0xEE [0x00]) []

/-- R104: the width select is log2 of the width; 3 decodes to no instruction, the encoder writes it for none, and no call of
the reader selects it. -/
def Obligations.WidthSelectIsLog2OfTheWidth : Prop :=
  (∀ (c : Cfg) (off : Offset),
    decode c (.call 0 off) = .ok (.rd8 off) [] ∧ decode c (.call 1 off) = .ok (.rd16 off) [] ∧
    decode c (.call 2 off) = .ok (.rd32 off) [] ∧ decode c (.call 3 off) = .error .reservedWidthSelect) ∧
  (∀ (c : Cfg) (i : Instr) (wsel : BitVec 2) (off : Offset), encode c i = .call wsel off → wsel ≠ 3) ∧
  (∀ w : ReadWidth, ReadWidth.ofSelect w.select = some w ∧ w.select ≠ 3) ∧ ReadWidth.ofSelect 3 = none

/-- R55, R102: writing a number as `n` bytes and assembling them gives it back, in either byte order. -/
def Obligations.AssemblyInvertsSplitting : Prop :=
  ∀ (o : ByteOrder) (n v : Nat), v < 256 ^ n → asm o (split o n v) = v ∧ (split o n v).length = n

/-! ### The reader -/

/-- R105: `RD8`, selected by `WSEL` = 0, returns the byte at the offset, or `ReadOutOfBounds` at or past the message end, and
changes nothing else (the field that carries the value to the caller is the model's, log 5). -/
def Obligations.Rd8ReturnsTheByte : Prop :=
  ∀ (s : State) (off : Offset),
    decode s.cfg (.call 0 off) = .ok (.rd8 off) [] ∧
    (∀ b : Byte, off.toNat < s.mlen.toNat → s.msgByte off.toNat = some b →
      exec (.rd8 off) s = .next { s with rdOut := .u8 b }) ∧
    (s.mlen.toNat ≤ off.toNat → exec (.rd8 off) s = .next { s with rdOut := .outOfBounds })

/-- R106: `RD16`, selected by `WSEL` = 1, assembles two bytes under `BYTE_ORDER` at any offset, or returns `ReadOutOfBounds` when fewer than two
remain. -/
def Obligations.Rd16AssemblesTwoBytes : Prop :=
  ∀ (s : State) (off : Offset),
    decode s.cfg (.call 1 off) = .ok (.rd16 off) [] ∧
    (∀ b0 b1 : Byte, off.toNat + 2 ≤ s.mlen.toNat →
      s.msgByte off.toNat = some b0 → s.msgByte (off.toNat + 1) = some b1 →
      ∃ v : U16, exec (.rd16 off) s = .next { s with rdOut := .u16 v } ∧
        (s.cfg.byteOrder = .le → v.toNat = b0.toNat + 256 * b1.toNat) ∧
        (s.cfg.byteOrder = .be → v.toNat = 256 * b0.toNat + b1.toNat)) ∧
    (s.mlen.toNat < off.toNat + 2 → exec (.rd16 off) s = .next { s with rdOut := .outOfBounds })

/-- R107: `RD32`, selected by `WSEL` = 2, assembles four bytes under `BYTE_ORDER` at any offset, or returns `ReadOutOfBounds` when fewer than four
remain. -/
def Obligations.Rd32AssemblesFourBytes : Prop :=
  ∀ (s : State) (off : Offset),
    decode s.cfg (.call 2 off) = .ok (.rd32 off) [] ∧
    (∀ b0 b1 b2 b3 : Byte, off.toNat + 4 ≤ s.mlen.toNat →
      s.msgByte off.toNat = some b0 → s.msgByte (off.toNat + 1) = some b1 →
      s.msgByte (off.toNat + 2) = some b2 → s.msgByte (off.toNat + 3) = some b3 →
      ∃ v : U32, exec (.rd32 off) s = .next { s with rdOut := .u32 v } ∧
        (s.cfg.byteOrder = .le →
          v.toNat = b0.toNat + 2 ^ 8 * b1.toNat + 2 ^ 16 * b2.toNat + 2 ^ 24 * b3.toNat) ∧
        (s.cfg.byteOrder = .be →
          v.toNat = 2 ^ 24 * b0.toNat + 2 ^ 16 * b1.toNat + 2 ^ 8 * b2.toNat + b3.toNat)) ∧
    (s.mlen.toNat < off.toNat + 4 → exec (.rd32 off) s = .next { s with rdOut := .outOfBounds })

/-- R108: `RDIW` is `RD16` when `IWB` = 2 and `RD32` when `IWB` = 4; it completes wherever the interval's bytes are within
the message and readable. -/
def Obligations.RdiwReadsOneInterval : Prop :=
  ∀ (s : State) (off : Offset),
    (s.cfg.iwb = .two → exec (.rdiw off) s = exec (.rd16 off) s) ∧
    (s.cfg.iwb = .four → exec (.rdiw off) s = exec (.rd32 off) s) ∧
    (off.toNat + s.cfg.iwb.bytes ≤ s.mlen.toNat → s.readable →
      ∃ r : ReadOut, exec (.rdiw off) s = .next { s with rdOut := r } ∧ r ≠ .outOfBounds ∧ r ≠ .none)

/-- R58, R102: what a reader operation returns depends on the bytes and the offset, never on where the message lies in
memory. -/
def Obligations.ReaderIsBlindToAlignment : Prop :=
  ∀ (s s' : State) (i : Instr) (t : State), i.isFrame = false →
    s'.cfg = s.cfg → s'.mlen = s.mlen → (∀ k < s.mlen.toNat, s'.msgByte k = s.msgByte k) →
    exec i s = .next t → exec i s' = .next { s' with rdOut := t.rdOut }

/-- What R103 says the reader leaves alone: a reader operation changes no register, emits nothing, and leaves every byte of memory alone; only the value
it returns to its caller appears (in the model's own field, log 5), and the same call made again at once
returns the same. (That the value depends on the message alone is `ReaderIsBlindToAlignment`.) -/
def Obligations.ReaderChangesNothing : Prop :=
  ∀ (s t : State) (i : Instr), i.isFrame = false → exec i s = .next t →
    t = { s with rdOut := t.rdOut } ∧ t.out = s.out ∧ (∀ a, t.mem.read a = s.mem.read a) ∧ exec i t = .next t

/-! ### The dispatcher's own frames -/

/-- R143: `EMPTY` reports `EmptyFrame` and does nothing else: no register is written, nothing is sent, the cycle goes on; the
rule's example, the message `01 00`. -/
def Obligations.EmptyFrameIsReported : Prop :=
  (∀ s : State, exec .empty s = .next { s with out := s.out ++ [.diag .emptyFrame] }) ∧
  ∀ c : Cfg, bigCycle c [0x01, 0x00] = [.diag .emptyFrame]

/-- R145, R146, R147: a standard frame with a payload of 4 bytes sends their value under its own tag with 32 bits; any
other payload length is `UnexpectedPayloadSize`, with `CODE` and the transmitter left alone. -/
def Obligations.StandardFrameSends32Bits : Prop :=
  ∀ (s : State) (tag : Byte),
    (∀ b0 b1 b2 b3 : Byte, ∃ code : U32,
      (s.cfg.byteOrder = .le →
        code.toNat = b0.toNat + 2 ^ 8 * b1.toNat + 2 ^ 16 * b2.toNat + 2 ^ 24 * b3.toNat) ∧
      (s.cfg.byteOrder = .be →
        code.toNat = 2 ^ 24 * b0.toNat + 2 ^ 16 * b1.toNat + 2 ^ 8 * b2.toNat + b3.toNat) ∧
      exec (.std tag [b0, b1, b2, b3]) s =
        .next { s with
          tag := tag, poff := s.foff + 1, plen := 4, code := code,
          out := s.out ++ [.genericCode tag code 32] }) ∧
    (∀ payload : List Byte, payload.length ≠ 4 →
      exec (.std tag payload) s =
        .next { s with
          tag := tag, poff := s.foff + 1, plen := BitVec.ofNat 8 payload.length,
          out := s.out ++ [.diag .unexpectedPayloadSize] })

/-- R148, R149, R150: a Delay frame with a payload of 2 bytes emits one `Wait` of that many milliseconds, 0 and 65535
included; any other payload length is `UnexpectedPayloadSize`, with `MS` left alone and nothing waited. -/
def Obligations.DelayFrameWaits : Prop :=
  ∀ s : State,
    (∀ b0 b1 : Byte, ∃ ms : U16,
      (s.cfg.byteOrder = .le → ms.toNat = b0.toNat + 256 * b1.toNat) ∧
      (s.cfg.byteOrder = .be → ms.toNat = 256 * b0.toNat + b1.toNat) ∧
      exec (.delay [b0, b1]) s =
        .next { s with
          tag := s.cfg.tagDelay, poff := s.foff + 1, plen := 2, ms := ms,
          out := s.out ++ [.wait ms] }) ∧
    (∀ payload : List Byte, payload.length ≠ 2 →
      exec (.delay payload) s =
        .next { s with
          tag := s.cfg.tagDelay, poff := s.foff + 1, plen := BitVec.ofNat 8 payload.length,
          out := s.out ++ [.diag .unexpectedPayloadSize] })

/-- R151: an unknown tag is reported with the tag, whatever the payload; nothing is sent and the cycle goes on. -/
def Obligations.UnknownTagIsReported : Prop :=
  ∀ (s : State) (tag : Byte) (payload : List Byte),
    exec (.unknown tag payload) s =
      .next { s with
        tag := tag, poff := s.foff + 1, plen := BitVec.ofNat 8 payload.length,
        out := s.out ++ [.diag (.unknownEncoding tag)] }

/-! ### The raw waveform builder -/

/-- R171, R177, R178, R179: a Raw frame of the required shape sends one interval list, the one its bytes give in
place, whether or not the remainder is misaligned in memory, and ends with the scratch buffer released
(its contents gone: log 4). Zero intervals are valid. -/
def Obligations.RawFrameSendsItsIntervals : Prop :=
  ∀ (s : State) (f0 f1 f2 f3 : Byte) (remainder : List Byte),
    remainder.length ≤ 250 → remainder.length % s.cfg.iwb.bytes = 0 →
    ∃ freq : U32,
      (s.cfg.byteOrder = .le →
        freq.toNat = f0.toNat + 2 ^ 8 * f1.toNat + 2 ^ 16 * f2.toNat + 2 ^ 24 * f3.toNat) ∧
      (s.cfg.byteOrder = .be →
        freq.toNat = 2 ^ 24 * f0.toNat + 2 ^ 16 * f1.toNat + 2 ^ 8 * f2.toNat + f3.toNat) ∧
      exec (.raw (f0 :: f1 :: f2 :: f3 :: remainder)) s =
      .next { s with
        tag := s.cfg.tagRaw, poff := s.foff + 1, plen := BitVec.ofNat 8 (remainder.length + 4),
        freq := freq, roff := s.foff + 1 + 4, rlen := BitVec.ofNat 8 remainder.length,
        niv := BitVec.ofNat 7 (remainder.length / s.cfg.iwb.bytes),
        scr := [], scrValid := false,
        out := s.out ++ [.rawIntervals freq (remainderIntervals s.cfg remainder)] }

/-- R173, R174, R180: the frequency and the intervals a Raw frame sends are the numbers written in its payload, in order and at
their width, whatever they are: none is validated, dropped, merged, scaled or clamped. -/
def Obligations.RawNumbersAreSentAsWritten : Prop :=
  ∀ (s : State) (freq : U32) (ivs : List Nat), (∀ v ∈ ivs, v < 2 ^ s.cfg.iwb.bits) →
    ∃ t, exec (.raw (split s.cfg.byteOrder 4 freq.toNat ++ ivs.flatMap (split s.cfg.byteOrder s.cfg.iwb.bytes))) s = .next t ∧
      t.freq = freq ∧
      t.out = s.out ++ [.rawIntervals freq
        (match s.cfg.iwb with
          | .two => .w16 (ivs.map (BitVec.ofNat 16))
          | .four => .w32 (ivs.map (BitVec.ofNat 32)))]

/-- R172: a payload without room for the frequency, or with a remainder that is no whole number of intervals, is
`InvalidRawLength`; `RLEN` alone of the builder's registers is written, and only where the remainder exists. -/
def Obligations.IllShapedRawFrameIsReported : Prop :=
  ∀ (s : State) (payload : List Byte),
    (payload.length < 4 →
      exec (.raw payload) s =
        .next { s with
          tag := s.cfg.tagRaw, poff := s.foff + 1, plen := BitVec.ofNat 8 payload.length,
          out := s.out ++ [.diag .invalidRawLength] }) ∧
    (4 ≤ payload.length → (payload.length - 4) % s.cfg.iwb.bytes ≠ 0 →
      exec (.raw payload) s =
        .next { s with
          tag := s.cfg.tagRaw, poff := s.foff + 1, plen := BitVec.ofNat 8 payload.length,
          rlen := BitVec.ofNat 8 (payload.length - 4),
          out := s.out ++ [.diag .invalidRawLength] })

/-- R176: after the copy, scratch byte `j` is byte `j` of the remainder, and no other scratch byte holds a value. -/
def Obligations.ScratchHoldsTheRemainder : Prop :=
  ∀ (s : State) (remainder : List Byte) (j : Nat),
    (s.copyToScratch remainder).scr.read j = remainder[j]? ∧ (s.copyToScratch remainder).scrValid = true ∧
      (s.copyToScratch remainder).scr.wf

/-! ### The Panasonic encoder -/

/-- R193, R196, R197: the state machine of R196, run from its entry row to `P_DONE`, produces the pulse list of R193's loop:
`PANA` sends it at 36700 Hz for every payload, the empty one included (R198), and leaves the encoder's registers where the
machine ends. -/
def Obligations.PanasonicFrameSendsThePulseList : Prop :=
  ∀ (s : State) (payload : List Byte), payload.length ≤ 254 →
    exec (.pana payload) s =
      .next { s with
        tag := s.cfg.tagPana, poff := s.foff + 1, plen := BitVec.ofNat 8 payload.length,
        pph := .done, pbyte := BitVec.ofNat 8 (payload.length - 1), pbit := if payload = [] then 0 else 7,
        out := s.out ++ [.rawWaveform 36700 (panaPulses s.cfg payload)] }

/-- R194: exactly 16 × `n` + 4 pulses, marks and spaces alternating from a mark to the closing zero-length space. -/
def Obligations.PulseCountAndAlternation : Prop :=
  ∀ (c : Cfg) (bs : List Byte),
    (panaPulses c bs).length = 16 * bs.length + 4 ∧
    (∀ (k : Nat) (p : Pulse), (panaPulses c bs)[k]? = some p → (p.isMark = true ↔ k % 2 = 0)) ∧
    (panaPulses c bs)[16 * bs.length + 3]? = some ⟨false, 0⟩

/-- R191, R192, R195: the header, then for the `k`-th data bit, which is bit `k mod 8` of byte `k div 8`, a 432 µs mark and a
space of 1296 µs for 1 or 432 µs for 0, then the trailing mark and the zero-length space; the byte order plays no part. -/
def Obligations.DataBitsInOrder : Prop :=
  ∀ (c : Cfg) (bs : List Byte),
    (panaPulses c bs)[0]? = some ⟨true, 3456⟩ ∧ (panaPulses c bs)[1]? = some ⟨false, 1728⟩ ∧
    (∀ (k : Nat) (b : Byte), bs[k / 8]? = some b →
      (panaPulses c bs)[2 * k + 2]? = some ⟨true, 432⟩ ∧
      (panaPulses c bs)[2 * k + 3]? = some ⟨false, if b.getLsbD (k % 8) then 1296 else 432⟩) ∧
    (panaPulses c bs)[16 * bs.length + 2]? = some ⟨true, 432⟩ ∧
    (panaPulses c bs)[16 * bs.length + 3]? = some ⟨false, 0⟩ ∧
    ∀ c' : Cfg, panaPulses c' bs = panaPulses c bs

/-- R202 (informative): the sum of the pulse durations, from the number of 1 bits of the payload. -/
def Obligations.PulseDurationsSum : Prop :=
  ∀ (c : Cfg) (bs : List Byte),
    let ones := (bs.map fun b => ((List.range 8).filter fun j => b.getLsbD j).length).sum
    ((panaPulses c bs).map fun p => p.dur.toNat).sum = 5184 + 864 * (8 * bs.length - ones) + 1728 * ones + 432

/-! ### Every dispatch -/

/-- R161: the dispatch of a well-formed frame completes and appends exactly one event, the one the big-step reading gives it;
and the frame does not end the cycle (R224). -/
def Obligations.DispatchAppendsExactlyOneEvent : Prop :=
  ∀ (s : State) (i : Instr), i.isFrame = true → i.wf s.cfg = true →
    ∃ (t : State) (e : Event), exec i s = .next t ∧ instrEvent s.cfg i = [e] ∧ t.out = s.out ++ [e] ∧ t.phase = s.phase

/-- R160, R21, R50: no instruction writes the cursor, the frame count or index, the current frame, the latched message, the
configuration, the input (log 15) or the reader's inputs (the model's own field, log 5), and no byte of the buffer
memory. -/
def Obligations.NoInstructionTransfersControl : Prop :=
  ∀ (s t : State) (i : Instr), exec i s = .next t →
    t.cur = s.cur ∧ t.idx = s.idx ∧ t.nfr = s.nfr ∧ t.foff = s.foff ∧ t.flen = s.flen ∧
    t.mbase = s.mbase ∧ t.mlen = s.mlen ∧ t.cfg = s.cfg ∧ t.port = s.port ∧ t.rdCall = s.rdCall ∧
    ∀ a, t.mem.read a = s.mem.read a

/-- The tables of 10_state.md sections 3 and 4: `TAG`, `POFF` and `PLEN` are the dispatcher's (no reader operation and no
empty frame writes them); `CODE` is written by `STD` only, `MS` by `DELAY` only, `FREQ`, `ROFF`, `RLEN`, `NIV` and the scratch
buffer by `RAW` only, `PPH`, `PBYTE` and `PBIT` by `PANA` only; and a reader operation's value by reader operations only. -/
def Obligations.HandlerRegistersHaveOneWriter : Prop :=
  ∀ (s t : State) (i : Instr), exec i s = .next t →
    ((i.isFrame = false ∨ i = .empty) → t.tag = s.tag ∧ t.poff = s.poff ∧ t.plen = s.plen) ∧
    ((∀ tag p, i ≠ .std tag p) → t.code = s.code) ∧
    ((∀ p, i ≠ .delay p) → t.ms = s.ms) ∧
    ((∀ p, i ≠ .raw p) →
      t.freq = s.freq ∧ t.roff = s.roff ∧ t.rlen = s.rlen ∧ t.niv = s.niv ∧ t.scrValid = s.scrValid ∧
        ∀ j, t.scr.read j = s.scr.read j) ∧
    ((∀ p, i ≠ .pana p) → t.pph = s.pph ∧ t.pbyte = s.pbyte ∧ t.pbit = s.pbit) ∧
    (i.isFrame = true → t.rdOut = s.rdOut) ∧
    (i.isFrame = false → t.out = s.out ∧ t.phase = s.phase)

/-- R210: the codes and the control action of each kind: only `FrameOverrun`, `TrailingOrTruncatedData` and
`ReadOutOfBounds` stop the cycle; the others leave the phase, and every kind appends its own event and writes no other
register (R221). -/
def Obligations.DiagnosticsTakeTheirControlAction : Prop :=
  (∀ t : Byte,
    [DiagKind.frameOverrun, .trailingOrTruncatedData, .emptyFrame, .unexpectedPayloadSize, .invalidRawLength,
      .unknownEncoding t, .readOutOfBounds].map DiagKind.code = [1, 2, 3, 4, 5, 6, 7]) ∧
  ∀ (s : State) (k : DiagKind),
    ((k = .frameOverrun ∨ k = .trailingOrTruncatedData ∨ k = .readOutOfBounds) →
      s.raiseDiag k = { s with out := s.out ++ [.diag k], phase := .idle }) ∧
    ((k ≠ .frameOverrun ∧ k ≠ .trailingOrTruncatedData ∧ k ≠ .readOutOfBounds) →
      s.raiseDiag k = { s with out := s.out ++ [.diag k] })

/-! ### The frame decoder and the step -/

/-- A step in the walk runs the decoded frame: when the message bytes at the cursor decode to an instruction, the step is that
instruction's meaning at the state in which the frame has been yielded: `FLEN` set, `FOFF` after the length byte, `CUR` past
the frame, `IDX` counted (R121). A frame that ends exactly at the message end is no overrun (R124). -/
def Obligations.StepRunsTheDecodedFrame : Prop :=
  ∀ (s : State) (len : Byte) (body : List Byte) (i : Instr),
    s.cfg.wf = true → s.rdCall = none → s.phase = .run → s.idx ≠ s.nfr →
    s.cur.toNat + (body.length + 1) ≤ s.mlen.toNat →
    (∀ k < body.length + 1, s.msgByte (s.cur.toNat + k) = (len :: body)[k]?) →
    decode s.cfg (.frame (len :: body)) = .ok i [] →
    step s = exec i { s with
      flen := len, foff := s.cur + 1, cur := s.cur + 1 + len.setWidth 32, idx := s.idx + 1 }

/-- A step with a reader call pending runs the operation its width select decodes to, and takes the call away (R104).
Every call's select decodes. The call is the model's own field (log 5), and so is its precedence: that it runs ahead of
the walk (log 5), and in `IDLE` ahead of accepting a message that waits at the input (log 17), is the model's choice. -/
def Obligations.StepRunsTheReaderCall : Prop :=
  ∀ (s : State) (call : ReaderCall), s.cfg.wf = true → s.rdCall = some call →
    ∃ i, decode s.cfg (.call call.width.select call.off) = .ok i [] ∧ step s = exec i { s with rdCall := none }

/-- R253, R24: an idle block accepts a presented message: it latches `MBASE` and `MLEN`, empties `OUT` and reads the count byte
at offset 0, whatever its value 0..255 (that both are one step is the model's choice, log 6). -/
def Obligations.AcceptanceReadsTheCount : Prop :=
  ∀ (s : State) (base : Addr) (count : Byte) (rest : List Byte),
    s.cfg.wf = true → s.offered base (count :: rest) →
    step s = .next { s with
      port := none, phase := .run, out := [], mbase := base, mlen := BitVec.ofNat 32 (rest.length + 1),
      nfr := count, cur := 1, idx := 0 }

/-- R125: an empty message is reported, dispatches nothing and ends its cycle. -/
def Obligations.EmptyMessageIsReported : Prop :=
  ∀ (s : State) (base : Addr), s.cfg.wf = true → s.offered base [] →
    step s = .next { s with
      port := none, phase := .idle, out := [.diag .trailingOrTruncatedData], mbase := base, mlen := 0 }

/-- R64: a message that would pass the end of the 32-bit address space is no message the host may present; the refusal is the
model's form of it (log 8). -/
def Obligations.MessagePastTheAddressSpaceIsRefused : Prop :=
  ∀ (s : State) (t : Transaction), s.cfg.wf = true → s.rdCall = none → s.phase = .idle → s.port = some t →
    2 ^ 32 < t.base.toNat + t.len.toNat → step s = .refused .addressRange

/-- R126: a frame is due and no byte is left for its length: `TrailingOrTruncatedData`, never `FrameOverrun`, and the cycle
ends. -/
def Obligations.MissingLengthByteStopsTheCycle : Prop :=
  ∀ s : State, s.cfg.wf = true → s.rdCall = none → s.phase = .run → s.idx ≠ s.nfr → s.cur = s.mlen →
    step s = .next { s with out := s.out ++ [.diag .trailingOrTruncatedData], phase := .idle }

/-- R124: a length byte that claims more than remains: `FrameOverrun`, and the cycle ends with the earlier events kept and no
tail check; the tag is not looked at. -/
def Obligations.OverrunStopsTheCycle : Prop :=
  ∀ (s : State) (len : Byte), s.cfg.wf = true → s.rdCall = none → s.phase = .run → s.idx ≠ s.nfr →
    s.cur.toNat < s.mlen.toNat → s.msgByte s.cur.toNat = some len → s.mlen.toNat - (s.cur.toNat + 1) < len.toNat →
    step s = .next { s with
      flen := len, cur := s.cur + 1, out := s.out ++ [.diag .frameOverrun], phase := .idle }

/-- R127, R128, R133: after the last frame the cycle ends; left-over bytes are reported, an exact end is not. -/
def Obligations.TailCheckEndsTheCycle : Prop :=
  ∀ s : State, s.cfg.wf = true → s.rdCall = none → s.phase = .run → s.idx = s.nfr →
    (s.cur = s.mlen → step s = .next { s with phase := .idle }) ∧
    (s.cur ≠ s.mlen →
      step s = .next { s with out := s.out ++ [.diag .trailingOrTruncatedData], phase := .idle })

/-- R258: while the block is busy nothing is taken from the input and no second message is latched. -/
def Obligations.BusyBlockAcceptsNothing : Prop :=
  ∀ s t : State, s.busy = true → step s = .next t → t.port = s.port ∧ t.mbase = s.mbase ∧ t.mlen = s.mlen

/-- R21, R50, R69: no step writes the configuration or any byte of the buffer memory, in any state. -/
def Obligations.NoStepWritesTheMessage : Prop :=
  ∀ s t : State, step s = .next t → t.cfg = s.cfg ∧ ∀ a, t.mem.read a = s.mem.read a

/-- R32, R123, R220: in a cycle the cursor never decreases, the trace only grows, by at most one event a step, and
`ReadOutOfBounds` is never emitted (R217). -/
def Obligations.CycleGoesForward : Prop :=
  ∀ s t : State, s.Inv → s.phase = .run → step s = .next t →
    s.cur.toNat ≤ t.cur.toNat ∧ t.cur.toNat ≤ t.mlen.toNat ∧
    ∃ es : List Event, t.out = s.out ++ es ∧ es.length ≤ 1 ∧ Event.diag .readOutOfBounds ∉ es

/-- R16: the block never crashes. No step of any state faults; and in a state of the invariant, where the host keeps its
duties, every step answers a next state. (That a pending reader call is run first, in `IDLE` too, is the model's choice:
logs 5 and 17.) -/
def Obligations.NoStepCrashes : Prop :=
  ∀ s : State,
    (∀ f, step s ≠ .fault f) ∧
    (s.Inv → s.cfg.wf = true → s.readable →
      (∀ t, s.port = some t → t.base.toNat + t.len.toNat ≤ 2 ^ 32 ∧
        ∀ k < t.len.toNat, (s.mem.read (t.base.toNat + k)).isSome = true) →
      ∃ t, step s = .next t)

/-- R16: the refusals of a step are those of an ill-formed configuration (R8) and of a host that broke its duties: a presented
message past the address space (R64), or a byte of the accepted or the presented message that is not in the buffer
(R259). There is no other, whatever the state and the message. (Their names are the model's: logs 3, 8, 12;
a reader call in `IDLE` reads the buffer of the last cycle, which the host may have unmapped: log 17.) -/
def Obligations.OnlyConfigurationAndHostAreRefused : Prop :=
  ∀ (s : State) (r : Refusal), step s = .refused r →
    (r = .illFormedConfig ∧ s.cfg.wf = false) ∨
    (r = .addressRange ∧ ∃ t, s.port = some t ∧ 2 ^ 32 < t.base.toNat + t.len.toNat) ∨
    (r = .bufferUnreadable ∧ ¬ s.readable) ∨
    (r = .bufferUnreadable ∧ ∃ t, s.port = some t ∧ ∃ k < t.len.toNat, s.mem.read (t.base.toNat + k) = none)

/-- R134: every cycle ends: from any point of a walk over a readable message, the block is idle after at most one step for each
frame still due and one for the tail. -/
def Obligations.EveryCycleEnds : Prop :=
  ∀ s : State, s.Inv → s.cfg.wf = true → s.rdCall = none → s.phase = .run → s.readable →
    ∃ k ≤ s.nfr.toNat - s.idx.toNat + 1, ∃ t, runSteps k s = .next t ∧ t.phase = .idle

/-- R121, R122, R18: the machine, run from acceptance until it is idle again, emits exactly the events of the big-step reading of
the message, for every message, every place in memory and every configuration. -/
def Obligations.CycleEmitsTheBigStepTrace : Prop :=
  ∀ (s : State) (base : Addr) (bytes : List Byte), s.cfg.wf = true → s.offered base bytes →
    ∃ k ≤ 256, ∃ t, runSteps (k + 1) s = .next t ∧ t.phase = .idle ∧ t.out = bigCycle s.cfg bytes ∧
      (s.scrValid = false → t.scrValid = false)

/-- R132: if the cycle of a message ends with neither message-level diagnostic, the message is its count byte and that many
frames back to back, and its length is 1 + Σ (1 + L). -/
def Obligations.FramingLaw : Prop :=
  ∀ (s t : State) (base : Addr) (bytes : List Byte) (k : Nat), s.cfg.wf = true → s.offered base bytes →
    runSteps (k + 1) s = .next t → t.phase = .idle →
    Event.diag .frameOverrun ∉ t.out → Event.diag .trailingOrTruncatedData ∉ t.out →
    ∃ (count : Byte) (bodies : List (List Byte)),
      bodies.length = count.toNat ∧ (∀ b ∈ bodies, b.length ≤ 255) ∧
      bytes = count :: bodies.flatMap (fun b => BitVec.ofNat 8 b.length :: b) ∧
      bytes.length = 1 + (bodies.map fun b => 1 + b.length).sum

/-- R177 and R20 over whole cycles: the same message at two places in memory, whatever the registers held before, gives the
same events: alignment never changes an observed value, and nothing survives from an earlier cycle. -/
def Obligations.TraceIsIndependentOfThePlace : Prop :=
  ∀ (s s' t t' : State) (base base' : Addr) (bytes : List Byte) (k k' : Nat),
    s.cfg.wf = true → s'.cfg = s.cfg → s.offered base bytes → s'.offered base' bytes →
    runSteps (k + 1) s = .next t → t.phase = .idle → runSteps (k' + 1) s' = .next t' → t'.phase = .idle →
    t.out = t'.out

/-- R86, R87, R132: a message assembled from well-formed lines with no override is well framed and its cycle emits, line by line
and in order, the events the lines are written for, and nothing else. -/
def Obligations.AssembledMessageEmitsItsLines : Prop :=
  ∀ (c : Cfg) (lines : List Line), c.wf = true → lines.length ≤ 255 → (∀ l ∈ lines, l.wf c = true) →
    bigCycle c (Source.assemble c { entries := lines.map fun l => { line := l } }) = lines.flatMap (Line.event c)
end

