-- ==== Sys2Proof/Laws/Memory.lean ====
section
/-! SUPPORT. The laws of the buffer memory and the scratch buffer: read after write, the canonical form kept by every memory
operation, and byte strings written and read back. -/

namespace Sys2Proof.Machine

@[simp] theorem Memory.read_nil (a : Nat) : Memory.read [] a = none := rfl

theorem Memory.read_write_same (m : Memory) (a : Nat) (b : Byte) : (m.write a b).read a = some b := by
  induction m with
  | nil => simp [Memory.write, Memory.read]
  | cons c rest ih =>
    obtain ⟨k, v⟩ := c
    simp only [Memory.write]
    split_ifs with h1 h2
    · simp [Memory.read]
    · simp [Memory.read]
    · simp [Memory.read, h1, h2, ih]

theorem Memory.read_write_other (m : Memory) (a a' : Nat) (b : Byte) (h : a' ≠ a) :
    (m.write a b).read a' = m.read a' := by
  induction m with
  | nil => simp [Memory.write, Memory.read, h]
  | cons c rest ih =>
    obtain ⟨k, v⟩ := c
    simp only [Memory.write]
    split_ifs with h1 h2
    · subst h1
      simp [Memory.read, h]
    · have key : a' < a → a' ≠ k ∧ a' < k := by omega
      by_cases hk : a' < a
      · simp [Memory.read, h, hk, key hk]
      · simp [Memory.read, h, hk]
    · simp only [Memory.read]
      split_ifs
      · rfl
      · rfl
      · exact ih

/-- Read after write, both cases at once. -/
theorem Memory.read_write (m : Memory) (a a' : Nat) (b : Byte) :
    (m.write a b).read a' = if a' = a then some b else m.read a' := by
  split_ifs with h
  · rw [h]; exact m.read_write_same a b
  · exact m.read_write_other a a' b h

theorem Memory.mem_write (m : Memory) (a : Nat) (b : Byte) :
    ∀ c ∈ m.write a b, c = (a, b) ∨ c ∈ m := by
  induction m with
  | nil => intro c hc; simpa [Memory.write] using hc
  | cons d rest ih =>
    obtain ⟨k, v⟩ := d
    intro c hc
    simp only [Memory.write] at hc
    split_ifs at hc with h1 h2
    · rcases List.mem_cons.1 hc with h | h
      · exact .inl h
      · exact .inr (List.mem_cons_of_mem _ h)
    · rcases List.mem_cons.1 hc with h | h
      · exact .inl h
      · exact .inr h
    · rcases List.mem_cons.1 hc with h | h
      · exact .inr (h ▸ List.mem_cons_self)
      · rcases ih c h with h | h
        · exact .inl h
        · exact .inr (List.mem_cons_of_mem _ h)

/-- A write keeps the canonical form. -/
theorem Memory.write_wf (m : Memory) (a : Nat) (b : Byte) (h : m.wf) : (m.write a b).wf := by
  induction m with
  | nil => simp [Memory.write]
  | cons d rest ih =>
    obtain ⟨k, v⟩ := d
    have hd := List.pairwise_cons.1 h
    simp only [Memory.write]
    split_ifs with h1 h2
    · subst h1
      exact List.pairwise_cons.2 ⟨hd.1, hd.2⟩
    · refine List.pairwise_cons.2 ⟨?_, h⟩
      intro c hc
      rcases List.mem_cons.1 hc with rfl | hc
      · exact h2
      · exact lt_trans h2 (hd.1 c hc)
    · refine List.pairwise_cons.2 ⟨?_, ih hd.2⟩
      intro c hc
      rcases Memory.mem_write rest a b c hc with rfl | hc
      · show k < a
        omega
      · exact hd.1 c hc

theorem Memory.writeBytes_wf (bs : List Byte) : ∀ (m : Memory) (a : Nat), m.wf → (m.writeBytes a bs).wf := by
  induction bs with
  | nil => intro m a h; exact h
  | cons b bs ih => intro m a h; exact ih _ _ (m.write_wf a b h)

/-- Every cell after the writes was there before or lies in the range written. -/
theorem Memory.mem_writeBytes (bs : List Byte) : ∀ (m : Memory) (a : Nat),
    ∀ c ∈ m.writeBytes a bs, (a ≤ c.1 ∧ c.1 < a + bs.length) ∨ c ∈ m := by
  induction bs with
  | nil => intro m a c hc; exact .inr hc
  | cons b bs ih =>
    intro m a c hc
    rcases ih (m.write a b) (a + 1) c hc with h | h
    · left; simp only [List.length_cons]; omega
    · rcases Memory.mem_write m a b c h with rfl | h
      · left; simp
      · exact .inr h

/-- What a memory reads after a byte string has been written. -/
theorem Memory.read_writeBytes (bs : List Byte) : ∀ (m : Memory) (a a' : Nat),
    (m.writeBytes a bs).read a' = if a ≤ a' ∧ a' < a + bs.length then bs[a' - a]? else m.read a' := by
  induction bs with
  | nil =>
    intro m a a'
    have : ¬ (a ≤ a' ∧ a' < a + ([] : List Byte).length) := by simp
    rw [if_neg this, Memory.writeBytes]
  | cons b bs ih =>
    intro m a a'
    simp only [Memory.writeBytes, ih, Memory.read_write, List.length_cons]
    by_cases h : a' = a
    · subst h
      simp
    · by_cases h2 : a + 1 ≤ a' ∧ a' < a + 1 + bs.length
      · have h3 : a ≤ a' ∧ a' < a + (bs.length + 1) := by omega
        have h4 : a' - a = (a' - (a + 1)) + 1 := by omega
        rw [if_pos h2, if_pos h3, h4, List.getElem?_cons_succ]
      · have h3 : ¬ (a ≤ a' ∧ a' < a + (bs.length + 1)) := by omega
        rw [if_neg h2, if_neg h3, if_neg h]

/-- A byte string just written is held. -/
theorem Memory.holds_writeBytes (m : Memory) (a : Nat) (bs : List Byte) :
    ∀ k < bs.length, (m.writeBytes a bs).read (a + k) = bs[k]? := by
  intro k hk
  rw [Memory.read_writeBytes, if_pos (by omega), Nat.add_sub_cancel_left]

end Sys2Proof.Machine
end

