-- ==== Sys2Proof/Laws/Panasonic.lean ====
section
/-! SUPPORT. The laws of the Panasonic encoder's constants and of the pulses of one byte (R191, R194). -/

namespace Sys2Proof.Machine

@[simp] theorem hdrMark_eq (c : Cfg) : hdrMark c = 3456 := by
  simp [hdrMark, Cfg.hdrMarkTicks, Cfg.tick]

@[simp] theorem hdrSpace_eq (c : Cfg) : hdrSpace c = 1728 := by
  simp [hdrSpace, Cfg.hdrSpaceTicks, Cfg.tick]

@[simp] theorem bitMark_eq (c : Cfg) : bitMark c = 432 := by
  simp [bitMark, Cfg.bitMarkTicks, Cfg.tick]

@[simp] theorem bitSpace_eq (c : Cfg) (b : Bool) : bitSpace c b = if b then 1296 else 432 := by
  cases b <;> simp [bitSpace, Cfg.oneSpaceTicks, Cfg.zeroSpaceTicks, Cfg.tick]

@[simp] theorem panaFreq_eq (c : Cfg) : c.panaFreq = 36700 := rfl

/-- One byte is 16 pulses. -/
theorem bytePulses_length (c : Cfg) (b : Byte) : (bytePulses c b).length = 16 := by
  simp [bytePulses, bitPulses, List.range, List.range.loop]

/-- `n` bytes are 16 × `n` pulses. -/
theorem flatMap_bytePulses_length (c : Cfg) (bs : List Byte) :
    (bs.flatMap (bytePulses c)).length = 16 * bs.length := by
  induction bs with
  | nil => rfl
  | cons b bs ih =>
    rw [List.flatMap_cons, List.length_append, bytePulses_length, ih, List.length_cons]
    omega

/-- The two pulses of bit `j` of a byte. -/
theorem bytePulses_get (c : Cfg) (b : Byte) (j : Nat) (h : j < 8) :
    (bytePulses c b)[2 * j]? = some ⟨true, bitMark c⟩ ∧
      (bytePulses c b)[2 * j + 1]? = some ⟨false, bitSpace c (b.getLsbD j)⟩ := by
  simp only [bytePulses, bitPulses, List.range, List.range.loop]
  interval_cases j <;> exact ⟨rfl, rfl⟩

end Sys2Proof.Machine
end

