-- ==== Sys2Proof/Laws/Reader.lean ====
section
/-! SUPPORT. The laws of operand assembly and of the bounds-checked reader: what each read returns where it completes, and that
an out-of-bounds read returns the error and nothing else. -/

namespace Sys2Proof.Machine

/-! ### Assembly -/

theorem asmLE_lt (bs : List Byte) : asmLE bs < 256 ^ bs.length := by
  induction bs with
  | nil => simp [asmLE]
  | cons b bs ih =>
    have := b.isLt
    simp only [asmLE, List.length_cons, Nat.pow_succ]
    omega

theorem splitLE_length (n : Nat) : ∀ v, (splitLE n v).length = n := by
  induction n with
  | zero => intro v; rfl
  | succ n ih => intro v; simp [splitLE, ih]

theorem asmLE_splitLE (n : Nat) : ∀ v, asmLE (splitLE n v) = v % 256 ^ n := by
  induction n with
  | zero => intro v; simp [splitLE, asmLE, Nat.mod_one]
  | succ n ih =>
    intro v
    have hp : 256 ^ (n + 1) = 256 * 256 ^ n := by rw [Nat.pow_succ, Nat.mul_comm]
    rw [splitLE, asmLE, ih, BitVec.toNat_ofNat, hp, Nat.mod_mul]

@[simp] theorem split_length (o : ByteOrder) (n v : Nat) : (split o n v).length = n := by
  cases o <;> simp [split, splitLE_length]

theorem asm_split (o : ByteOrder) (n v : Nat) : asm o (split o n v) = v % 256 ^ n := by
  cases o <;> simp [asm, split, asmLE_splitLE]

/-! ### Reading bytes -/

/-- Reading where every byte holds a value gives those bytes. -/
theorem readEach_ok (get : Nat → Option Byte) : ∀ (bs : List Byte) (off : Nat),
    (∀ k < bs.length, get (off + k) = bs[k]?) → readEach get off bs.length = .ok bs := by
  intro bs
  induction bs with
  | nil => intro off _; rfl
  | cons b bs ih =>
    intro off h
    have h0 : get off = some b := by simpa using h 0 (by simp)
    have hs := ih (off + 1) fun k hk => by
      have := h (k + 1) (by simpa using hk)
      rw [show off + 1 + k = off + (k + 1) by omega, this]
      simp
    simp [readEach, h0, hs]

/-- A completed read took one value at each position. -/
theorem readEach_spec (get : Nat → Option Byte) : ∀ (n off : Nat) (bs : List Byte),
    readEach get off n = .ok bs → bs.length = n ∧ ∀ k < n, get (off + k) = bs[k]? := by
  intro n
  induction n with
  | zero =>
    intro off bs h
    simp only [readEach, Except.ok.injEq] at h
    subst h
    simp
  | succ n ih =>
    intro off bs h
    simp only [readEach] at h
    cases hg : get off with
    | none => simp [hg] at h
    | some b =>
      cases hr : readEach get (off + 1) n with
      | error e => simp [hg, hr] at h
      | ok r =>
        simp only [hg, hr, Except.ok.injEq] at h
        subst h
        obtain ⟨hl, hk⟩ := ih _ _ hr
        refine ⟨by simp [hl], ?_⟩
        intro k hkn
        cases k with
        | zero => simpa using hg
        | succ k =>
          rw [show off + (k + 1) = off + 1 + k by omega, hk k (by omega)]
          simp

/-- A read of listed bytes fails only for want of a value. -/
theorem readEach_error (get : Nat → Option Byte) : ∀ (n off : Nat) (e : ReadError),
    readEach get off n = .error e → e = .noValue ∧ ∃ k < n, get (off + k) = none := by
  intro n
  induction n with
  | zero => intro off e h; simp [readEach] at h
  | succ n ih =>
    intro off e h
    simp only [readEach] at h
    cases hg : get off with
    | none =>
      simp only [hg, Except.error.injEq] at h
      exact ⟨h.symm, 0, by omega, by simpa using hg⟩
    | some b =>
      cases hr : readEach get (off + 1) n with
      | ok r => simp [hg, hr] at h
      | error e' =>
        simp only [hg, hr, Except.error.injEq] at h
        subst h
        obtain ⟨he, k, hk, hk2⟩ := ih _ _ hr
        exact ⟨he, k + 1, by omega, by rw [← hk2]; congr 1; omega⟩

/-- Two buffers with the same bytes read the same. -/
theorem readEach_congr (get get' : Nat → Option Byte) : ∀ (n off : Nat),
    (∀ k < n, get (off + k) = get' (off + k)) → readEach get off n = readEach get' off n := by
  intro n
  induction n with
  | zero => intro off _; rfl
  | succ n ih =>
    intro off h
    have h0 : get off = get' off := by simpa using h 0 (by omega)
    have hs := ih (off + 1) fun k hk => by
      rw [show off + 1 + k = off + (k + 1) by omega]
      exact h (k + 1) (by omega)
    simp only [readEach, h0, hs]

/-- R101: an out-of-bounds read returns the error. -/
theorem readBytes_outOfBounds (size : Nat) (get : Nat → Option Byte) (off n : Nat) (h : size < off + n) :
    readBytes size get off n = .error .outOfBounds := by
  have : ¬ (off ≤ size ∧ n ≤ size - off) := by omega
  simp [readBytes, this]

/-- R102: an in-bounds read of bytes that are there returns them. -/
theorem readBytes_ok (size : Nat) (get : Nat → Option Byte) (off : Nat) (bs : List Byte)
    (hb : off + bs.length ≤ size) (h : ∀ k < bs.length, get (off + k) = bs[k]?) :
    readBytes size get off bs.length = .ok bs := by
  have : off ≤ size ∧ bs.length ≤ size - off := by omega
  rw [readBytes, if_pos this, readEach_ok get bs off h]

theorem readBytes_spec (size : Nat) (get : Nat → Option Byte) (off n : Nat) (bs : List Byte)
    (h : readBytes size get off n = .ok bs) :
    off + n ≤ size ∧ bs.length = n ∧ ∀ k < n, get (off + k) = bs[k]? := by
  simp only [readBytes] at h
  split_ifs at h with hb
  obtain ⟨h1, h2⟩ := readEach_spec get n off bs h
  exact ⟨by omega, h1, h2⟩

/-- Which error a read returns. -/
theorem readBytes_error (size : Nat) (get : Nat → Option Byte) (off n : Nat) (e : ReadError)
    (h : readBytes size get off n = .error e) :
    (e = .outOfBounds ∧ size < off + n) ∨ (e = .noValue ∧ off + n ≤ size ∧ ∃ k < n, get (off + k) = none) := by
  simp only [readBytes] at h
  split_ifs at h with hb
  · obtain ⟨he, hk⟩ := readEach_error get n off e h
    exact .inr ⟨he, by omega, hk⟩
  · simp only [Except.error.injEq] at h
    exact .inl ⟨h.symm, by omega⟩

theorem readBytes_congr (size : Nat) (get get' : Nat → Option Byte) (off n : Nat)
    (h : ∀ k < size, get k = get' k) : readBytes size get off n = readBytes size get' off n := by
  simp only [readBytes]
  split_ifs with hb
  · exact readEach_congr get get' n off fun k hk => h _ (by omega)
  · rfl

/-! ### Reading integers -/

/-- `RD` where the bytes are there. -/
theorem rd_ok (o : ByteOrder) (w size : Nat) (get : Nat → Option Byte) (off : Nat) (bs : List Byte)
    (hw : w / 8 = bs.length) (hb : off + bs.length ≤ size) (h : ∀ k < bs.length, get (off + k) = bs[k]?) :
    rd o w size get off = .ok (BitVec.ofNat w (asm o bs)) := by
  rw [rd, hw, readBytes_ok size get off bs hb h]

theorem rd_outOfBounds (o : ByteOrder) (w size : Nat) (get : Nat → Option Byte) (off : Nat)
    (h : size < off + w / 8) : rd o w size get off = .error .outOfBounds := by
  rw [rd, readBytes_outOfBounds size get off _ h]

theorem rd_congr (o : ByteOrder) (w size : Nat) (get get' : Nat → Option Byte) (off : Nat)
    (h : ∀ k < size, get k = get' k) : rd o w size get off = rd o w size get' off := by
  rw [rd, rd, readBytes_congr size get get' off _ h]

theorem rd_error (o : ByteOrder) (w size : Nat) (get : Nat → Option Byte) (off : Nat) (e : ReadError)
    (h : rd o w size get off = .error e) :
    (e = .outOfBounds ∧ size < off + w / 8) ∨
      (e = .noValue ∧ off + w / 8 ≤ size ∧ ∃ k < w / 8, get (off + k) = none) := by
  simp only [rd] at h
  cases hr : readBytes size get off (w / 8) with
  | ok bs => simp [hr] at h
  | error e' =>
    simp only [hr, Except.error.injEq] at h
    subst h
    exact readBytes_error size get off _ _ hr

/-- `RD` over a frame view. -/
theorem viewRd_ok (c : Cfg) (w : Nat) (payload : List Byte) (k : Nat) (h : k + w / 8 ≤ payload.length) :
    viewRd c w payload k = .ok (BitVec.ofNat w (asm c.byteOrder ((payload.drop k).take (w / 8)))) := by
  have hl : ((payload.drop k).take (w / 8)).length = w / 8 := by
    rw [List.length_take, List.length_drop]; omega
  refine rd_ok c.byteOrder w payload.length (viewByte payload) k _ hl.symm (by rw [hl]; exact h) ?_
  intro j hj
  rw [hl] at hj
  simp [viewByte, hj]

/-- Consecutive integers of bytes that are there: the assembly of each chunk. -/
theorem rdSeq_ok (o : ByteOrder) (w size : Nat) (get : Nat → Option Byte) (bs : List Byte) :
    ∀ (n off at_ : Nat), at_ + w / 8 * n ≤ bs.length → off + w / 8 * n ≤ size →
      (∀ k < w / 8 * n, get (off + k) = bs[at_ + k]?) →
      rdSeq o w size get off n =
        .ok ((List.range n).map fun i => BitVec.ofNat w (asm o ((bs.drop (at_ + w / 8 * i)).take (w / 8)))) := by
  intro n
  induction n with
  | zero => intro off at_ _ _ _; rfl
  | succ n ih =>
    intro off at_ hlen hsize hget
    have hmul : w / 8 * (n + 1) = w / 8 * n + w / 8 := Nat.mul_succ _ _
    have hl : ((bs.drop at_).take (w / 8)).length = w / 8 := by
      rw [List.length_take, List.length_drop]; omega
    have h1 : rd o w size get off = .ok (BitVec.ofNat w (asm o ((bs.drop at_).take (w / 8)))) := by
      refine rd_ok o w size get off _ hl.symm (by rw [hl]; omega) ?_
      intro k hk
      rw [hl] at hk
      rw [hget k (by omega)]
      simp [hk]
    have h2 := ih (off + w / 8) (at_ + w / 8) (by omega) (by omega) (by
      intro k hk
      rw [show off + w / 8 + k = off + (w / 8 + k) by omega, hget (w / 8 + k) (by omega)]
      congr 1; omega)
    simp only [rdSeq, h1, h2]
    rw [List.range_succ_eq_map]
    simp only [List.map_cons, List.map_map, Nat.mul_zero, Nat.add_zero]
    congr 2
    apply List.map_congr_left
    intro i _
    simp only [Function.comp, Nat.succ_eq_add_one, Nat.mul_add, Nat.mul_one]
    rw [show at_ + w / 8 + w / 8 * i = at_ + (w / 8 * i + w / 8) by omega]

/-- The interval list of a remainder of whole intervals that lies at `off` of a buffer: what the big-step reading reads in
place. -/
theorem rdIntervals_ok (c : Cfg) (size : Nat) (get : Nat → Option Byte) (off n : Nat) (remainder : List Byte)
    (hn : n * c.iwb.bytes = remainder.length) (hs : off + remainder.length ≤ size)
    (hg : ∀ k < remainder.length, get (off + k) = remainder[k]?) :
    rdIntervals c size get off n = .ok (remainderIntervals c remainder) := by
  cases hw : c.iwb with
  | two =>
    simp only [hw, IntervalWidth.bytes] at hn
    have h := rdSeq_ok c.byteOrder 16 size get remainder n off 0 (by omega) (by omega)
      (by simpa using fun k hk => hg k (by omega))
    simp only [rdIntervals, hw, h, remainderIntervals, IntervalWidth.bytes]
    rw [show remainder.length / 2 = n by omega]
    simp
  | four =>
    simp only [hw, IntervalWidth.bytes] at hn
    have h := rdSeq_ok c.byteOrder 32 size get remainder n off 0 (by omega) (by omega)
      (by simpa using fun k hk => hg k (by omega))
    simp only [rdIntervals, hw, h, remainderIntervals, IntervalWidth.bytes]
    rw [show remainder.length / 4 = n by omega]
    simp

end Sys2Proof.Machine
end

