-- ==== Sys2Proof/Laws/State.lean ====
section
/-! SUPPORT. What each register move of the machine leaves in each field of the state: one lemma per field per update, so that
no proof unfolds a record update. -/

namespace Sys2Proof.Machine

/-! ### `emit` -/

@[simp] theorem State.emit_cfg (e : Event) (s : State) : (State.emit e s).cfg = s.cfg := rfl
@[simp] theorem State.emit_mem (e : Event) (s : State) : (State.emit e s).mem = s.mem := rfl
@[simp] theorem State.emit_port (e : Event) (s : State) : (State.emit e s).port = s.port := rfl
@[simp] theorem State.emit_phase (e : Event) (s : State) : (State.emit e s).phase = s.phase := rfl
@[simp] theorem State.emit_mbase (e : Event) (s : State) : (State.emit e s).mbase = s.mbase := rfl
@[simp] theorem State.emit_mlen (e : Event) (s : State) : (State.emit e s).mlen = s.mlen := rfl
@[simp] theorem State.emit_nfr (e : Event) (s : State) : (State.emit e s).nfr = s.nfr := rfl
@[simp] theorem State.emit_idx (e : Event) (s : State) : (State.emit e s).idx = s.idx := rfl
@[simp] theorem State.emit_cur (e : Event) (s : State) : (State.emit e s).cur = s.cur := rfl
@[simp] theorem State.emit_flen (e : Event) (s : State) : (State.emit e s).flen = s.flen := rfl
@[simp] theorem State.emit_foff (e : Event) (s : State) : (State.emit e s).foff = s.foff := rfl
@[simp] theorem State.emit_tag (e : Event) (s : State) : (State.emit e s).tag = s.tag := rfl
@[simp] theorem State.emit_poff (e : Event) (s : State) : (State.emit e s).poff = s.poff := rfl
@[simp] theorem State.emit_plen (e : Event) (s : State) : (State.emit e s).plen = s.plen := rfl
@[simp] theorem State.emit_code (e : Event) (s : State) : (State.emit e s).code = s.code := rfl
@[simp] theorem State.emit_ms (e : Event) (s : State) : (State.emit e s).ms = s.ms := rfl
@[simp] theorem State.emit_freq (e : Event) (s : State) : (State.emit e s).freq = s.freq := rfl
@[simp] theorem State.emit_roff (e : Event) (s : State) : (State.emit e s).roff = s.roff := rfl
@[simp] theorem State.emit_rlen (e : Event) (s : State) : (State.emit e s).rlen = s.rlen := rfl
@[simp] theorem State.emit_niv (e : Event) (s : State) : (State.emit e s).niv = s.niv := rfl
@[simp] theorem State.emit_pph (e : Event) (s : State) : (State.emit e s).pph = s.pph := rfl
@[simp] theorem State.emit_pbyte (e : Event) (s : State) : (State.emit e s).pbyte = s.pbyte := rfl
@[simp] theorem State.emit_pbit (e : Event) (s : State) : (State.emit e s).pbit = s.pbit := rfl
@[simp] theorem State.emit_scr (e : Event) (s : State) : (State.emit e s).scr = s.scr := rfl
@[simp] theorem State.emit_scrValid (e : Event) (s : State) : (State.emit e s).scrValid = s.scrValid := rfl
@[simp] theorem State.emit_out (e : Event) (s : State) : (State.emit e s).out = s.out ++ [e] := rfl
@[simp] theorem State.emit_rdCall (e : Event) (s : State) : (State.emit e s).rdCall = s.rdCall := rfl
@[simp] theorem State.emit_rdOut (e : Event) (s : State) : (State.emit e s).rdOut = s.rdOut := rfl

/-! ### `raiseDiag` -/

@[simp] theorem State.raiseDiag_cfg (k : DiagKind) (s : State) : (State.raiseDiag k s).cfg = s.cfg := rfl
@[simp] theorem State.raiseDiag_mem (k : DiagKind) (s : State) : (State.raiseDiag k s).mem = s.mem := rfl
@[simp] theorem State.raiseDiag_port (k : DiagKind) (s : State) : (State.raiseDiag k s).port = s.port := rfl
@[simp] theorem State.raiseDiag_phase (k : DiagKind) (s : State) : (State.raiseDiag k s).phase = if k.stopsCycle then .idle else s.phase := rfl
@[simp] theorem State.raiseDiag_mbase (k : DiagKind) (s : State) : (State.raiseDiag k s).mbase = s.mbase := rfl
@[simp] theorem State.raiseDiag_mlen (k : DiagKind) (s : State) : (State.raiseDiag k s).mlen = s.mlen := rfl
@[simp] theorem State.raiseDiag_nfr (k : DiagKind) (s : State) : (State.raiseDiag k s).nfr = s.nfr := rfl
@[simp] theorem State.raiseDiag_idx (k : DiagKind) (s : State) : (State.raiseDiag k s).idx = s.idx := rfl
@[simp] theorem State.raiseDiag_cur (k : DiagKind) (s : State) : (State.raiseDiag k s).cur = s.cur := rfl
@[simp] theorem State.raiseDiag_flen (k : DiagKind) (s : State) : (State.raiseDiag k s).flen = s.flen := rfl
@[simp] theorem State.raiseDiag_foff (k : DiagKind) (s : State) : (State.raiseDiag k s).foff = s.foff := rfl
@[simp] theorem State.raiseDiag_tag (k : DiagKind) (s : State) : (State.raiseDiag k s).tag = s.tag := rfl
@[simp] theorem State.raiseDiag_poff (k : DiagKind) (s : State) : (State.raiseDiag k s).poff = s.poff := rfl
@[simp] theorem State.raiseDiag_plen (k : DiagKind) (s : State) : (State.raiseDiag k s).plen = s.plen := rfl
@[simp] theorem State.raiseDiag_code (k : DiagKind) (s : State) : (State.raiseDiag k s).code = s.code := rfl
@[simp] theorem State.raiseDiag_ms (k : DiagKind) (s : State) : (State.raiseDiag k s).ms = s.ms := rfl
@[simp] theorem State.raiseDiag_freq (k : DiagKind) (s : State) : (State.raiseDiag k s).freq = s.freq := rfl
@[simp] theorem State.raiseDiag_roff (k : DiagKind) (s : State) : (State.raiseDiag k s).roff = s.roff := rfl
@[simp] theorem State.raiseDiag_rlen (k : DiagKind) (s : State) : (State.raiseDiag k s).rlen = s.rlen := rfl
@[simp] theorem State.raiseDiag_niv (k : DiagKind) (s : State) : (State.raiseDiag k s).niv = s.niv := rfl
@[simp] theorem State.raiseDiag_pph (k : DiagKind) (s : State) : (State.raiseDiag k s).pph = s.pph := rfl
@[simp] theorem State.raiseDiag_pbyte (k : DiagKind) (s : State) : (State.raiseDiag k s).pbyte = s.pbyte := rfl
@[simp] theorem State.raiseDiag_pbit (k : DiagKind) (s : State) : (State.raiseDiag k s).pbit = s.pbit := rfl
@[simp] theorem State.raiseDiag_scr (k : DiagKind) (s : State) : (State.raiseDiag k s).scr = s.scr := rfl
@[simp] theorem State.raiseDiag_scrValid (k : DiagKind) (s : State) : (State.raiseDiag k s).scrValid = s.scrValid := rfl
@[simp] theorem State.raiseDiag_out (k : DiagKind) (s : State) : (State.raiseDiag k s).out = s.out ++ [.diag k] := rfl
@[simp] theorem State.raiseDiag_rdCall (k : DiagKind) (s : State) : (State.raiseDiag k s).rdCall = s.rdCall := rfl
@[simp] theorem State.raiseDiag_rdOut (k : DiagKind) (s : State) : (State.raiseDiag k s).rdOut = s.rdOut := rfl

/-! ### `latch` -/

@[simp] theorem State.latch_cfg (t : Transaction) (s : State) : (State.latch t s).cfg = s.cfg := rfl
@[simp] theorem State.latch_mem (t : Transaction) (s : State) : (State.latch t s).mem = s.mem := rfl
@[simp] theorem State.latch_port (t : Transaction) (s : State) : (State.latch t s).port = none := rfl
@[simp] theorem State.latch_phase (t : Transaction) (s : State) : (State.latch t s).phase = .run := rfl
@[simp] theorem State.latch_mbase (t : Transaction) (s : State) : (State.latch t s).mbase = t.base := rfl
@[simp] theorem State.latch_mlen (t : Transaction) (s : State) : (State.latch t s).mlen = t.len := rfl
@[simp] theorem State.latch_nfr (t : Transaction) (s : State) : (State.latch t s).nfr = s.nfr := rfl
@[simp] theorem State.latch_idx (t : Transaction) (s : State) : (State.latch t s).idx = s.idx := rfl
@[simp] theorem State.latch_cur (t : Transaction) (s : State) : (State.latch t s).cur = s.cur := rfl
@[simp] theorem State.latch_flen (t : Transaction) (s : State) : (State.latch t s).flen = s.flen := rfl
@[simp] theorem State.latch_foff (t : Transaction) (s : State) : (State.latch t s).foff = s.foff := rfl
@[simp] theorem State.latch_tag (t : Transaction) (s : State) : (State.latch t s).tag = s.tag := rfl
@[simp] theorem State.latch_poff (t : Transaction) (s : State) : (State.latch t s).poff = s.poff := rfl
@[simp] theorem State.latch_plen (t : Transaction) (s : State) : (State.latch t s).plen = s.plen := rfl
@[simp] theorem State.latch_code (t : Transaction) (s : State) : (State.latch t s).code = s.code := rfl
@[simp] theorem State.latch_ms (t : Transaction) (s : State) : (State.latch t s).ms = s.ms := rfl
@[simp] theorem State.latch_freq (t : Transaction) (s : State) : (State.latch t s).freq = s.freq := rfl
@[simp] theorem State.latch_roff (t : Transaction) (s : State) : (State.latch t s).roff = s.roff := rfl
@[simp] theorem State.latch_rlen (t : Transaction) (s : State) : (State.latch t s).rlen = s.rlen := rfl
@[simp] theorem State.latch_niv (t : Transaction) (s : State) : (State.latch t s).niv = s.niv := rfl
@[simp] theorem State.latch_pph (t : Transaction) (s : State) : (State.latch t s).pph = s.pph := rfl
@[simp] theorem State.latch_pbyte (t : Transaction) (s : State) : (State.latch t s).pbyte = s.pbyte := rfl
@[simp] theorem State.latch_pbit (t : Transaction) (s : State) : (State.latch t s).pbit = s.pbit := rfl
@[simp] theorem State.latch_scr (t : Transaction) (s : State) : (State.latch t s).scr = s.scr := rfl
@[simp] theorem State.latch_scrValid (t : Transaction) (s : State) : (State.latch t s).scrValid = s.scrValid := rfl
@[simp] theorem State.latch_out (t : Transaction) (s : State) : (State.latch t s).out = [] := rfl
@[simp] theorem State.latch_rdCall (t : Transaction) (s : State) : (State.latch t s).rdCall = s.rdCall := rfl
@[simp] theorem State.latch_rdOut (t : Transaction) (s : State) : (State.latch t s).rdOut = s.rdOut := rfl

/-! ### `startWalk` -/

@[simp] theorem State.startWalk_cfg (n : Byte) (s : State) : (State.startWalk n s).cfg = s.cfg := rfl
@[simp] theorem State.startWalk_mem (n : Byte) (s : State) : (State.startWalk n s).mem = s.mem := rfl
@[simp] theorem State.startWalk_port (n : Byte) (s : State) : (State.startWalk n s).port = s.port := rfl
@[simp] theorem State.startWalk_phase (n : Byte) (s : State) : (State.startWalk n s).phase = s.phase := rfl
@[simp] theorem State.startWalk_mbase (n : Byte) (s : State) : (State.startWalk n s).mbase = s.mbase := rfl
@[simp] theorem State.startWalk_mlen (n : Byte) (s : State) : (State.startWalk n s).mlen = s.mlen := rfl
@[simp] theorem State.startWalk_nfr (n : Byte) (s : State) : (State.startWalk n s).nfr = n := rfl
@[simp] theorem State.startWalk_idx (n : Byte) (s : State) : (State.startWalk n s).idx = 0 := rfl
@[simp] theorem State.startWalk_cur (n : Byte) (s : State) : (State.startWalk n s).cur = 1 := rfl
@[simp] theorem State.startWalk_flen (n : Byte) (s : State) : (State.startWalk n s).flen = s.flen := rfl
@[simp] theorem State.startWalk_foff (n : Byte) (s : State) : (State.startWalk n s).foff = s.foff := rfl
@[simp] theorem State.startWalk_tag (n : Byte) (s : State) : (State.startWalk n s).tag = s.tag := rfl
@[simp] theorem State.startWalk_poff (n : Byte) (s : State) : (State.startWalk n s).poff = s.poff := rfl
@[simp] theorem State.startWalk_plen (n : Byte) (s : State) : (State.startWalk n s).plen = s.plen := rfl
@[simp] theorem State.startWalk_code (n : Byte) (s : State) : (State.startWalk n s).code = s.code := rfl
@[simp] theorem State.startWalk_ms (n : Byte) (s : State) : (State.startWalk n s).ms = s.ms := rfl
@[simp] theorem State.startWalk_freq (n : Byte) (s : State) : (State.startWalk n s).freq = s.freq := rfl
@[simp] theorem State.startWalk_roff (n : Byte) (s : State) : (State.startWalk n s).roff = s.roff := rfl
@[simp] theorem State.startWalk_rlen (n : Byte) (s : State) : (State.startWalk n s).rlen = s.rlen := rfl
@[simp] theorem State.startWalk_niv (n : Byte) (s : State) : (State.startWalk n s).niv = s.niv := rfl
@[simp] theorem State.startWalk_pph (n : Byte) (s : State) : (State.startWalk n s).pph = s.pph := rfl
@[simp] theorem State.startWalk_pbyte (n : Byte) (s : State) : (State.startWalk n s).pbyte = s.pbyte := rfl
@[simp] theorem State.startWalk_pbit (n : Byte) (s : State) : (State.startWalk n s).pbit = s.pbit := rfl
@[simp] theorem State.startWalk_scr (n : Byte) (s : State) : (State.startWalk n s).scr = s.scr := rfl
@[simp] theorem State.startWalk_scrValid (n : Byte) (s : State) : (State.startWalk n s).scrValid = s.scrValid := rfl
@[simp] theorem State.startWalk_out (n : Byte) (s : State) : (State.startWalk n s).out = s.out := rfl
@[simp] theorem State.startWalk_rdCall (n : Byte) (s : State) : (State.startWalk n s).rdCall = s.rdCall := rfl
@[simp] theorem State.startWalk_rdOut (n : Byte) (s : State) : (State.startWalk n s).rdOut = s.rdOut := rfl

/-! ### `takeLength` -/

@[simp] theorem State.takeLength_cfg (len : Byte) (s : State) : (State.takeLength len s).cfg = s.cfg := rfl
@[simp] theorem State.takeLength_mem (len : Byte) (s : State) : (State.takeLength len s).mem = s.mem := rfl
@[simp] theorem State.takeLength_port (len : Byte) (s : State) : (State.takeLength len s).port = s.port := rfl
@[simp] theorem State.takeLength_phase (len : Byte) (s : State) : (State.takeLength len s).phase = s.phase := rfl
@[simp] theorem State.takeLength_mbase (len : Byte) (s : State) : (State.takeLength len s).mbase = s.mbase := rfl
@[simp] theorem State.takeLength_mlen (len : Byte) (s : State) : (State.takeLength len s).mlen = s.mlen := rfl
@[simp] theorem State.takeLength_nfr (len : Byte) (s : State) : (State.takeLength len s).nfr = s.nfr := rfl
@[simp] theorem State.takeLength_idx (len : Byte) (s : State) : (State.takeLength len s).idx = s.idx := rfl
@[simp] theorem State.takeLength_cur (len : Byte) (s : State) : (State.takeLength len s).cur = s.cur + 1 := rfl
@[simp] theorem State.takeLength_flen (len : Byte) (s : State) : (State.takeLength len s).flen = len := rfl
@[simp] theorem State.takeLength_foff (len : Byte) (s : State) : (State.takeLength len s).foff = s.foff := rfl
@[simp] theorem State.takeLength_tag (len : Byte) (s : State) : (State.takeLength len s).tag = s.tag := rfl
@[simp] theorem State.takeLength_poff (len : Byte) (s : State) : (State.takeLength len s).poff = s.poff := rfl
@[simp] theorem State.takeLength_plen (len : Byte) (s : State) : (State.takeLength len s).plen = s.plen := rfl
@[simp] theorem State.takeLength_code (len : Byte) (s : State) : (State.takeLength len s).code = s.code := rfl
@[simp] theorem State.takeLength_ms (len : Byte) (s : State) : (State.takeLength len s).ms = s.ms := rfl
@[simp] theorem State.takeLength_freq (len : Byte) (s : State) : (State.takeLength len s).freq = s.freq := rfl
@[simp] theorem State.takeLength_roff (len : Byte) (s : State) : (State.takeLength len s).roff = s.roff := rfl
@[simp] theorem State.takeLength_rlen (len : Byte) (s : State) : (State.takeLength len s).rlen = s.rlen := rfl
@[simp] theorem State.takeLength_niv (len : Byte) (s : State) : (State.takeLength len s).niv = s.niv := rfl
@[simp] theorem State.takeLength_pph (len : Byte) (s : State) : (State.takeLength len s).pph = s.pph := rfl
@[simp] theorem State.takeLength_pbyte (len : Byte) (s : State) : (State.takeLength len s).pbyte = s.pbyte := rfl
@[simp] theorem State.takeLength_pbit (len : Byte) (s : State) : (State.takeLength len s).pbit = s.pbit := rfl
@[simp] theorem State.takeLength_scr (len : Byte) (s : State) : (State.takeLength len s).scr = s.scr := rfl
@[simp] theorem State.takeLength_scrValid (len : Byte) (s : State) : (State.takeLength len s).scrValid = s.scrValid := rfl
@[simp] theorem State.takeLength_out (len : Byte) (s : State) : (State.takeLength len s).out = s.out := rfl
@[simp] theorem State.takeLength_rdCall (len : Byte) (s : State) : (State.takeLength len s).rdCall = s.rdCall := rfl
@[simp] theorem State.takeLength_rdOut (len : Byte) (s : State) : (State.takeLength len s).rdOut = s.rdOut := rfl

/-! ### `yieldFrame` -/

@[simp] theorem State.yieldFrame_cfg (s : State) : (State.yieldFrame s).cfg = s.cfg := rfl
@[simp] theorem State.yieldFrame_mem (s : State) : (State.yieldFrame s).mem = s.mem := rfl
@[simp] theorem State.yieldFrame_port (s : State) : (State.yieldFrame s).port = s.port := rfl
@[simp] theorem State.yieldFrame_phase (s : State) : (State.yieldFrame s).phase = s.phase := rfl
@[simp] theorem State.yieldFrame_mbase (s : State) : (State.yieldFrame s).mbase = s.mbase := rfl
@[simp] theorem State.yieldFrame_mlen (s : State) : (State.yieldFrame s).mlen = s.mlen := rfl
@[simp] theorem State.yieldFrame_nfr (s : State) : (State.yieldFrame s).nfr = s.nfr := rfl
@[simp] theorem State.yieldFrame_idx (s : State) : (State.yieldFrame s).idx = s.idx + 1 := rfl
@[simp] theorem State.yieldFrame_cur (s : State) : (State.yieldFrame s).cur = s.cur + s.flen.setWidth 32 := rfl
@[simp] theorem State.yieldFrame_flen (s : State) : (State.yieldFrame s).flen = s.flen := rfl
@[simp] theorem State.yieldFrame_foff (s : State) : (State.yieldFrame s).foff = s.cur := rfl
@[simp] theorem State.yieldFrame_tag (s : State) : (State.yieldFrame s).tag = s.tag := rfl
@[simp] theorem State.yieldFrame_poff (s : State) : (State.yieldFrame s).poff = s.poff := rfl
@[simp] theorem State.yieldFrame_plen (s : State) : (State.yieldFrame s).plen = s.plen := rfl
@[simp] theorem State.yieldFrame_code (s : State) : (State.yieldFrame s).code = s.code := rfl
@[simp] theorem State.yieldFrame_ms (s : State) : (State.yieldFrame s).ms = s.ms := rfl
@[simp] theorem State.yieldFrame_freq (s : State) : (State.yieldFrame s).freq = s.freq := rfl
@[simp] theorem State.yieldFrame_roff (s : State) : (State.yieldFrame s).roff = s.roff := rfl
@[simp] theorem State.yieldFrame_rlen (s : State) : (State.yieldFrame s).rlen = s.rlen := rfl
@[simp] theorem State.yieldFrame_niv (s : State) : (State.yieldFrame s).niv = s.niv := rfl
@[simp] theorem State.yieldFrame_pph (s : State) : (State.yieldFrame s).pph = s.pph := rfl
@[simp] theorem State.yieldFrame_pbyte (s : State) : (State.yieldFrame s).pbyte = s.pbyte := rfl
@[simp] theorem State.yieldFrame_pbit (s : State) : (State.yieldFrame s).pbit = s.pbit := rfl
@[simp] theorem State.yieldFrame_scr (s : State) : (State.yieldFrame s).scr = s.scr := rfl
@[simp] theorem State.yieldFrame_scrValid (s : State) : (State.yieldFrame s).scrValid = s.scrValid := rfl
@[simp] theorem State.yieldFrame_out (s : State) : (State.yieldFrame s).out = s.out := rfl
@[simp] theorem State.yieldFrame_rdCall (s : State) : (State.yieldFrame s).rdCall = s.rdCall := rfl
@[simp] theorem State.yieldFrame_rdOut (s : State) : (State.yieldFrame s).rdOut = s.rdOut := rfl

/-! ### `endCycle` -/

@[simp] theorem State.endCycle_cfg (s : State) : (State.endCycle s).cfg = s.cfg := rfl
@[simp] theorem State.endCycle_mem (s : State) : (State.endCycle s).mem = s.mem := rfl
@[simp] theorem State.endCycle_port (s : State) : (State.endCycle s).port = s.port := rfl
@[simp] theorem State.endCycle_phase (s : State) : (State.endCycle s).phase = .idle := rfl
@[simp] theorem State.endCycle_mbase (s : State) : (State.endCycle s).mbase = s.mbase := rfl
@[simp] theorem State.endCycle_mlen (s : State) : (State.endCycle s).mlen = s.mlen := rfl
@[simp] theorem State.endCycle_nfr (s : State) : (State.endCycle s).nfr = s.nfr := rfl
@[simp] theorem State.endCycle_idx (s : State) : (State.endCycle s).idx = s.idx := rfl
@[simp] theorem State.endCycle_cur (s : State) : (State.endCycle s).cur = s.cur := rfl
@[simp] theorem State.endCycle_flen (s : State) : (State.endCycle s).flen = s.flen := rfl
@[simp] theorem State.endCycle_foff (s : State) : (State.endCycle s).foff = s.foff := rfl
@[simp] theorem State.endCycle_tag (s : State) : (State.endCycle s).tag = s.tag := rfl
@[simp] theorem State.endCycle_poff (s : State) : (State.endCycle s).poff = s.poff := rfl
@[simp] theorem State.endCycle_plen (s : State) : (State.endCycle s).plen = s.plen := rfl
@[simp] theorem State.endCycle_code (s : State) : (State.endCycle s).code = s.code := rfl
@[simp] theorem State.endCycle_ms (s : State) : (State.endCycle s).ms = s.ms := rfl
@[simp] theorem State.endCycle_freq (s : State) : (State.endCycle s).freq = s.freq := rfl
@[simp] theorem State.endCycle_roff (s : State) : (State.endCycle s).roff = s.roff := rfl
@[simp] theorem State.endCycle_rlen (s : State) : (State.endCycle s).rlen = s.rlen := rfl
@[simp] theorem State.endCycle_niv (s : State) : (State.endCycle s).niv = s.niv := rfl
@[simp] theorem State.endCycle_pph (s : State) : (State.endCycle s).pph = s.pph := rfl
@[simp] theorem State.endCycle_pbyte (s : State) : (State.endCycle s).pbyte = s.pbyte := rfl
@[simp] theorem State.endCycle_pbit (s : State) : (State.endCycle s).pbit = s.pbit := rfl
@[simp] theorem State.endCycle_scr (s : State) : (State.endCycle s).scr = s.scr := rfl
@[simp] theorem State.endCycle_scrValid (s : State) : (State.endCycle s).scrValid = s.scrValid := rfl
@[simp] theorem State.endCycle_out (s : State) : (State.endCycle s).out = s.out := rfl
@[simp] theorem State.endCycle_rdCall (s : State) : (State.endCycle s).rdCall = s.rdCall := rfl
@[simp] theorem State.endCycle_rdOut (s : State) : (State.endCycle s).rdOut = s.rdOut := rfl

/-! ### `loadTag` -/

@[simp] theorem State.loadTag_cfg (tag : Byte) (n : Nat) (s : State) : (State.loadTag tag n s).cfg = s.cfg := rfl
@[simp] theorem State.loadTag_mem (tag : Byte) (n : Nat) (s : State) : (State.loadTag tag n s).mem = s.mem := rfl
@[simp] theorem State.loadTag_port (tag : Byte) (n : Nat) (s : State) : (State.loadTag tag n s).port = s.port := rfl
@[simp] theorem State.loadTag_phase (tag : Byte) (n : Nat) (s : State) : (State.loadTag tag n s).phase = s.phase := rfl
@[simp] theorem State.loadTag_mbase (tag : Byte) (n : Nat) (s : State) : (State.loadTag tag n s).mbase = s.mbase := rfl
@[simp] theorem State.loadTag_mlen (tag : Byte) (n : Nat) (s : State) : (State.loadTag tag n s).mlen = s.mlen := rfl
@[simp] theorem State.loadTag_nfr (tag : Byte) (n : Nat) (s : State) : (State.loadTag tag n s).nfr = s.nfr := rfl
@[simp] theorem State.loadTag_idx (tag : Byte) (n : Nat) (s : State) : (State.loadTag tag n s).idx = s.idx := rfl
@[simp] theorem State.loadTag_cur (tag : Byte) (n : Nat) (s : State) : (State.loadTag tag n s).cur = s.cur := rfl
@[simp] theorem State.loadTag_flen (tag : Byte) (n : Nat) (s : State) : (State.loadTag tag n s).flen = s.flen := rfl
@[simp] theorem State.loadTag_foff (tag : Byte) (n : Nat) (s : State) : (State.loadTag tag n s).foff = s.foff := rfl
@[simp] theorem State.loadTag_tag (tag : Byte) (n : Nat) (s : State) : (State.loadTag tag n s).tag = tag := rfl
@[simp] theorem State.loadTag_poff (tag : Byte) (n : Nat) (s : State) : (State.loadTag tag n s).poff = s.foff + 1 := rfl
@[simp] theorem State.loadTag_plen (tag : Byte) (n : Nat) (s : State) : (State.loadTag tag n s).plen = BitVec.ofNat 8 n := rfl
@[simp] theorem State.loadTag_code (tag : Byte) (n : Nat) (s : State) : (State.loadTag tag n s).code = s.code := rfl
@[simp] theorem State.loadTag_ms (tag : Byte) (n : Nat) (s : State) : (State.loadTag tag n s).ms = s.ms := rfl
@[simp] theorem State.loadTag_freq (tag : Byte) (n : Nat) (s : State) : (State.loadTag tag n s).freq = s.freq := rfl
@[simp] theorem State.loadTag_roff (tag : Byte) (n : Nat) (s : State) : (State.loadTag tag n s).roff = s.roff := rfl
@[simp] theorem State.loadTag_rlen (tag : Byte) (n : Nat) (s : State) : (State.loadTag tag n s).rlen = s.rlen := rfl
@[simp] theorem State.loadTag_niv (tag : Byte) (n : Nat) (s : State) : (State.loadTag tag n s).niv = s.niv := rfl
@[simp] theorem State.loadTag_pph (tag : Byte) (n : Nat) (s : State) : (State.loadTag tag n s).pph = s.pph := rfl
@[simp] theorem State.loadTag_pbyte (tag : Byte) (n : Nat) (s : State) : (State.loadTag tag n s).pbyte = s.pbyte := rfl
@[simp] theorem State.loadTag_pbit (tag : Byte) (n : Nat) (s : State) : (State.loadTag tag n s).pbit = s.pbit := rfl
@[simp] theorem State.loadTag_scr (tag : Byte) (n : Nat) (s : State) : (State.loadTag tag n s).scr = s.scr := rfl
@[simp] theorem State.loadTag_scrValid (tag : Byte) (n : Nat) (s : State) : (State.loadTag tag n s).scrValid = s.scrValid := rfl
@[simp] theorem State.loadTag_out (tag : Byte) (n : Nat) (s : State) : (State.loadTag tag n s).out = s.out := rfl
@[simp] theorem State.loadTag_rdCall (tag : Byte) (n : Nat) (s : State) : (State.loadTag tag n s).rdCall = s.rdCall := rfl
@[simp] theorem State.loadTag_rdOut (tag : Byte) (n : Nat) (s : State) : (State.loadTag tag n s).rdOut = s.rdOut := rfl

/-! ### `loadRaw` -/

@[simp] theorem State.loadRaw_cfg (f : U32) (n : Nat) (s : State) : (State.loadRaw f n s).cfg = s.cfg := rfl
@[simp] theorem State.loadRaw_mem (f : U32) (n : Nat) (s : State) : (State.loadRaw f n s).mem = s.mem := rfl
@[simp] theorem State.loadRaw_port (f : U32) (n : Nat) (s : State) : (State.loadRaw f n s).port = s.port := rfl
@[simp] theorem State.loadRaw_phase (f : U32) (n : Nat) (s : State) : (State.loadRaw f n s).phase = s.phase := rfl
@[simp] theorem State.loadRaw_mbase (f : U32) (n : Nat) (s : State) : (State.loadRaw f n s).mbase = s.mbase := rfl
@[simp] theorem State.loadRaw_mlen (f : U32) (n : Nat) (s : State) : (State.loadRaw f n s).mlen = s.mlen := rfl
@[simp] theorem State.loadRaw_nfr (f : U32) (n : Nat) (s : State) : (State.loadRaw f n s).nfr = s.nfr := rfl
@[simp] theorem State.loadRaw_idx (f : U32) (n : Nat) (s : State) : (State.loadRaw f n s).idx = s.idx := rfl
@[simp] theorem State.loadRaw_cur (f : U32) (n : Nat) (s : State) : (State.loadRaw f n s).cur = s.cur := rfl
@[simp] theorem State.loadRaw_flen (f : U32) (n : Nat) (s : State) : (State.loadRaw f n s).flen = s.flen := rfl
@[simp] theorem State.loadRaw_foff (f : U32) (n : Nat) (s : State) : (State.loadRaw f n s).foff = s.foff := rfl
@[simp] theorem State.loadRaw_tag (f : U32) (n : Nat) (s : State) : (State.loadRaw f n s).tag = s.tag := rfl
@[simp] theorem State.loadRaw_poff (f : U32) (n : Nat) (s : State) : (State.loadRaw f n s).poff = s.poff := rfl
@[simp] theorem State.loadRaw_plen (f : U32) (n : Nat) (s : State) : (State.loadRaw f n s).plen = s.plen := rfl
@[simp] theorem State.loadRaw_code (f : U32) (n : Nat) (s : State) : (State.loadRaw f n s).code = s.code := rfl
@[simp] theorem State.loadRaw_ms (f : U32) (n : Nat) (s : State) : (State.loadRaw f n s).ms = s.ms := rfl
@[simp] theorem State.loadRaw_freq (f : U32) (n : Nat) (s : State) : (State.loadRaw f n s).freq = f := rfl
@[simp] theorem State.loadRaw_roff (f : U32) (n : Nat) (s : State) : (State.loadRaw f n s).roff = s.poff + 4 := rfl
@[simp] theorem State.loadRaw_rlen (f : U32) (n : Nat) (s : State) : (State.loadRaw f n s).rlen = s.rlen := rfl
@[simp] theorem State.loadRaw_niv (f : U32) (n : Nat) (s : State) : (State.loadRaw f n s).niv = BitVec.ofNat 7 (n / s.cfg.iwb.bytes) := rfl
@[simp] theorem State.loadRaw_pph (f : U32) (n : Nat) (s : State) : (State.loadRaw f n s).pph = s.pph := rfl
@[simp] theorem State.loadRaw_pbyte (f : U32) (n : Nat) (s : State) : (State.loadRaw f n s).pbyte = s.pbyte := rfl
@[simp] theorem State.loadRaw_pbit (f : U32) (n : Nat) (s : State) : (State.loadRaw f n s).pbit = s.pbit := rfl
@[simp] theorem State.loadRaw_scr (f : U32) (n : Nat) (s : State) : (State.loadRaw f n s).scr = s.scr := rfl
@[simp] theorem State.loadRaw_scrValid (f : U32) (n : Nat) (s : State) : (State.loadRaw f n s).scrValid = s.scrValid := rfl
@[simp] theorem State.loadRaw_out (f : U32) (n : Nat) (s : State) : (State.loadRaw f n s).out = s.out := rfl
@[simp] theorem State.loadRaw_rdCall (f : U32) (n : Nat) (s : State) : (State.loadRaw f n s).rdCall = s.rdCall := rfl
@[simp] theorem State.loadRaw_rdOut (f : U32) (n : Nat) (s : State) : (State.loadRaw f n s).rdOut = s.rdOut := rfl

/-! ### `copyToScratch` -/

@[simp] theorem State.copyToScratch_cfg (bs : List Byte) (s : State) : (State.copyToScratch bs s).cfg = s.cfg := rfl
@[simp] theorem State.copyToScratch_mem (bs : List Byte) (s : State) : (State.copyToScratch bs s).mem = s.mem := rfl
@[simp] theorem State.copyToScratch_port (bs : List Byte) (s : State) : (State.copyToScratch bs s).port = s.port := rfl
@[simp] theorem State.copyToScratch_phase (bs : List Byte) (s : State) : (State.copyToScratch bs s).phase = s.phase := rfl
@[simp] theorem State.copyToScratch_mbase (bs : List Byte) (s : State) : (State.copyToScratch bs s).mbase = s.mbase := rfl
@[simp] theorem State.copyToScratch_mlen (bs : List Byte) (s : State) : (State.copyToScratch bs s).mlen = s.mlen := rfl
@[simp] theorem State.copyToScratch_nfr (bs : List Byte) (s : State) : (State.copyToScratch bs s).nfr = s.nfr := rfl
@[simp] theorem State.copyToScratch_idx (bs : List Byte) (s : State) : (State.copyToScratch bs s).idx = s.idx := rfl
@[simp] theorem State.copyToScratch_cur (bs : List Byte) (s : State) : (State.copyToScratch bs s).cur = s.cur := rfl
@[simp] theorem State.copyToScratch_flen (bs : List Byte) (s : State) : (State.copyToScratch bs s).flen = s.flen := rfl
@[simp] theorem State.copyToScratch_foff (bs : List Byte) (s : State) : (State.copyToScratch bs s).foff = s.foff := rfl
@[simp] theorem State.copyToScratch_tag (bs : List Byte) (s : State) : (State.copyToScratch bs s).tag = s.tag := rfl
@[simp] theorem State.copyToScratch_poff (bs : List Byte) (s : State) : (State.copyToScratch bs s).poff = s.poff := rfl
@[simp] theorem State.copyToScratch_plen (bs : List Byte) (s : State) : (State.copyToScratch bs s).plen = s.plen := rfl
@[simp] theorem State.copyToScratch_code (bs : List Byte) (s : State) : (State.copyToScratch bs s).code = s.code := rfl
@[simp] theorem State.copyToScratch_ms (bs : List Byte) (s : State) : (State.copyToScratch bs s).ms = s.ms := rfl
@[simp] theorem State.copyToScratch_freq (bs : List Byte) (s : State) : (State.copyToScratch bs s).freq = s.freq := rfl
@[simp] theorem State.copyToScratch_roff (bs : List Byte) (s : State) : (State.copyToScratch bs s).roff = s.roff := rfl
@[simp] theorem State.copyToScratch_rlen (bs : List Byte) (s : State) : (State.copyToScratch bs s).rlen = s.rlen := rfl
@[simp] theorem State.copyToScratch_niv (bs : List Byte) (s : State) : (State.copyToScratch bs s).niv = s.niv := rfl
@[simp] theorem State.copyToScratch_pph (bs : List Byte) (s : State) : (State.copyToScratch bs s).pph = s.pph := rfl
@[simp] theorem State.copyToScratch_pbyte (bs : List Byte) (s : State) : (State.copyToScratch bs s).pbyte = s.pbyte := rfl
@[simp] theorem State.copyToScratch_pbit (bs : List Byte) (s : State) : (State.copyToScratch bs s).pbit = s.pbit := rfl
@[simp] theorem State.copyToScratch_scr (bs : List Byte) (s : State) : (State.copyToScratch bs s).scr = Memory.writeBytes [] 0 bs := rfl
@[simp] theorem State.copyToScratch_scrValid (bs : List Byte) (s : State) : (State.copyToScratch bs s).scrValid = true := rfl
@[simp] theorem State.copyToScratch_out (bs : List Byte) (s : State) : (State.copyToScratch bs s).out = s.out := rfl
@[simp] theorem State.copyToScratch_rdCall (bs : List Byte) (s : State) : (State.copyToScratch bs s).rdCall = s.rdCall := rfl
@[simp] theorem State.copyToScratch_rdOut (bs : List Byte) (s : State) : (State.copyToScratch bs s).rdOut = s.rdOut := rfl

/-! ### `releaseScratch` -/

@[simp] theorem State.releaseScratch_cfg (s : State) : (State.releaseScratch s).cfg = s.cfg := rfl
@[simp] theorem State.releaseScratch_mem (s : State) : (State.releaseScratch s).mem = s.mem := rfl
@[simp] theorem State.releaseScratch_port (s : State) : (State.releaseScratch s).port = s.port := rfl
@[simp] theorem State.releaseScratch_phase (s : State) : (State.releaseScratch s).phase = s.phase := rfl
@[simp] theorem State.releaseScratch_mbase (s : State) : (State.releaseScratch s).mbase = s.mbase := rfl
@[simp] theorem State.releaseScratch_mlen (s : State) : (State.releaseScratch s).mlen = s.mlen := rfl
@[simp] theorem State.releaseScratch_nfr (s : State) : (State.releaseScratch s).nfr = s.nfr := rfl
@[simp] theorem State.releaseScratch_idx (s : State) : (State.releaseScratch s).idx = s.idx := rfl
@[simp] theorem State.releaseScratch_cur (s : State) : (State.releaseScratch s).cur = s.cur := rfl
@[simp] theorem State.releaseScratch_flen (s : State) : (State.releaseScratch s).flen = s.flen := rfl
@[simp] theorem State.releaseScratch_foff (s : State) : (State.releaseScratch s).foff = s.foff := rfl
@[simp] theorem State.releaseScratch_tag (s : State) : (State.releaseScratch s).tag = s.tag := rfl
@[simp] theorem State.releaseScratch_poff (s : State) : (State.releaseScratch s).poff = s.poff := rfl
@[simp] theorem State.releaseScratch_plen (s : State) : (State.releaseScratch s).plen = s.plen := rfl
@[simp] theorem State.releaseScratch_code (s : State) : (State.releaseScratch s).code = s.code := rfl
@[simp] theorem State.releaseScratch_ms (s : State) : (State.releaseScratch s).ms = s.ms := rfl
@[simp] theorem State.releaseScratch_freq (s : State) : (State.releaseScratch s).freq = s.freq := rfl
@[simp] theorem State.releaseScratch_roff (s : State) : (State.releaseScratch s).roff = s.roff := rfl
@[simp] theorem State.releaseScratch_rlen (s : State) : (State.releaseScratch s).rlen = s.rlen := rfl
@[simp] theorem State.releaseScratch_niv (s : State) : (State.releaseScratch s).niv = s.niv := rfl
@[simp] theorem State.releaseScratch_pph (s : State) : (State.releaseScratch s).pph = s.pph := rfl
@[simp] theorem State.releaseScratch_pbyte (s : State) : (State.releaseScratch s).pbyte = s.pbyte := rfl
@[simp] theorem State.releaseScratch_pbit (s : State) : (State.releaseScratch s).pbit = s.pbit := rfl
@[simp] theorem State.releaseScratch_scr (s : State) : (State.releaseScratch s).scr = [] := rfl
@[simp] theorem State.releaseScratch_scrValid (s : State) : (State.releaseScratch s).scrValid = false := rfl
@[simp] theorem State.releaseScratch_out (s : State) : (State.releaseScratch s).out = s.out := rfl
@[simp] theorem State.releaseScratch_rdCall (s : State) : (State.releaseScratch s).rdCall = s.rdCall := rfl
@[simp] theorem State.releaseScratch_rdOut (s : State) : (State.releaseScratch s).rdOut = s.rdOut := rfl

/-! ### `loadPana` -/

@[simp] theorem State.loadPana_cfg (r : PanaRegs) (s : State) : (State.loadPana r s).cfg = s.cfg := rfl
@[simp] theorem State.loadPana_mem (r : PanaRegs) (s : State) : (State.loadPana r s).mem = s.mem := rfl
@[simp] theorem State.loadPana_port (r : PanaRegs) (s : State) : (State.loadPana r s).port = s.port := rfl
@[simp] theorem State.loadPana_phase (r : PanaRegs) (s : State) : (State.loadPana r s).phase = s.phase := rfl
@[simp] theorem State.loadPana_mbase (r : PanaRegs) (s : State) : (State.loadPana r s).mbase = s.mbase := rfl
@[simp] theorem State.loadPana_mlen (r : PanaRegs) (s : State) : (State.loadPana r s).mlen = s.mlen := rfl
@[simp] theorem State.loadPana_nfr (r : PanaRegs) (s : State) : (State.loadPana r s).nfr = s.nfr := rfl
@[simp] theorem State.loadPana_idx (r : PanaRegs) (s : State) : (State.loadPana r s).idx = s.idx := rfl
@[simp] theorem State.loadPana_cur (r : PanaRegs) (s : State) : (State.loadPana r s).cur = s.cur := rfl
@[simp] theorem State.loadPana_flen (r : PanaRegs) (s : State) : (State.loadPana r s).flen = s.flen := rfl
@[simp] theorem State.loadPana_foff (r : PanaRegs) (s : State) : (State.loadPana r s).foff = s.foff := rfl
@[simp] theorem State.loadPana_tag (r : PanaRegs) (s : State) : (State.loadPana r s).tag = s.tag := rfl
@[simp] theorem State.loadPana_poff (r : PanaRegs) (s : State) : (State.loadPana r s).poff = s.poff := rfl
@[simp] theorem State.loadPana_plen (r : PanaRegs) (s : State) : (State.loadPana r s).plen = s.plen := rfl
@[simp] theorem State.loadPana_code (r : PanaRegs) (s : State) : (State.loadPana r s).code = s.code := rfl
@[simp] theorem State.loadPana_ms (r : PanaRegs) (s : State) : (State.loadPana r s).ms = s.ms := rfl
@[simp] theorem State.loadPana_freq (r : PanaRegs) (s : State) : (State.loadPana r s).freq = s.freq := rfl
@[simp] theorem State.loadPana_roff (r : PanaRegs) (s : State) : (State.loadPana r s).roff = s.roff := rfl
@[simp] theorem State.loadPana_rlen (r : PanaRegs) (s : State) : (State.loadPana r s).rlen = s.rlen := rfl
@[simp] theorem State.loadPana_niv (r : PanaRegs) (s : State) : (State.loadPana r s).niv = s.niv := rfl
@[simp] theorem State.loadPana_pph (r : PanaRegs) (s : State) : (State.loadPana r s).pph = r.pph := rfl
@[simp] theorem State.loadPana_pbyte (r : PanaRegs) (s : State) : (State.loadPana r s).pbyte = r.pbyte := rfl
@[simp] theorem State.loadPana_pbit (r : PanaRegs) (s : State) : (State.loadPana r s).pbit = r.pbit := rfl
@[simp] theorem State.loadPana_scr (r : PanaRegs) (s : State) : (State.loadPana r s).scr = s.scr := rfl
@[simp] theorem State.loadPana_scrValid (r : PanaRegs) (s : State) : (State.loadPana r s).scrValid = s.scrValid := rfl
@[simp] theorem State.loadPana_out (r : PanaRegs) (s : State) : (State.loadPana r s).out = s.out := rfl
@[simp] theorem State.loadPana_rdCall (r : PanaRegs) (s : State) : (State.loadPana r s).rdCall = s.rdCall := rfl
@[simp] theorem State.loadPana_rdOut (r : PanaRegs) (s : State) : (State.loadPana r s).rdOut = s.rdOut := rfl

/-! ### `setCode` -/

@[simp] theorem State.setCode_cfg (v : U32) (s : State) : (State.setCode v s).cfg = s.cfg := rfl
@[simp] theorem State.setCode_mem (v : U32) (s : State) : (State.setCode v s).mem = s.mem := rfl
@[simp] theorem State.setCode_port (v : U32) (s : State) : (State.setCode v s).port = s.port := rfl
@[simp] theorem State.setCode_phase (v : U32) (s : State) : (State.setCode v s).phase = s.phase := rfl
@[simp] theorem State.setCode_mbase (v : U32) (s : State) : (State.setCode v s).mbase = s.mbase := rfl
@[simp] theorem State.setCode_mlen (v : U32) (s : State) : (State.setCode v s).mlen = s.mlen := rfl
@[simp] theorem State.setCode_nfr (v : U32) (s : State) : (State.setCode v s).nfr = s.nfr := rfl
@[simp] theorem State.setCode_idx (v : U32) (s : State) : (State.setCode v s).idx = s.idx := rfl
@[simp] theorem State.setCode_cur (v : U32) (s : State) : (State.setCode v s).cur = s.cur := rfl
@[simp] theorem State.setCode_flen (v : U32) (s : State) : (State.setCode v s).flen = s.flen := rfl
@[simp] theorem State.setCode_foff (v : U32) (s : State) : (State.setCode v s).foff = s.foff := rfl
@[simp] theorem State.setCode_tag (v : U32) (s : State) : (State.setCode v s).tag = s.tag := rfl
@[simp] theorem State.setCode_poff (v : U32) (s : State) : (State.setCode v s).poff = s.poff := rfl
@[simp] theorem State.setCode_plen (v : U32) (s : State) : (State.setCode v s).plen = s.plen := rfl
@[simp] theorem State.setCode_code (v : U32) (s : State) : (State.setCode v s).code = v := rfl
@[simp] theorem State.setCode_ms (v : U32) (s : State) : (State.setCode v s).ms = s.ms := rfl
@[simp] theorem State.setCode_freq (v : U32) (s : State) : (State.setCode v s).freq = s.freq := rfl
@[simp] theorem State.setCode_roff (v : U32) (s : State) : (State.setCode v s).roff = s.roff := rfl
@[simp] theorem State.setCode_rlen (v : U32) (s : State) : (State.setCode v s).rlen = s.rlen := rfl
@[simp] theorem State.setCode_niv (v : U32) (s : State) : (State.setCode v s).niv = s.niv := rfl
@[simp] theorem State.setCode_pph (v : U32) (s : State) : (State.setCode v s).pph = s.pph := rfl
@[simp] theorem State.setCode_pbyte (v : U32) (s : State) : (State.setCode v s).pbyte = s.pbyte := rfl
@[simp] theorem State.setCode_pbit (v : U32) (s : State) : (State.setCode v s).pbit = s.pbit := rfl
@[simp] theorem State.setCode_scr (v : U32) (s : State) : (State.setCode v s).scr = s.scr := rfl
@[simp] theorem State.setCode_scrValid (v : U32) (s : State) : (State.setCode v s).scrValid = s.scrValid := rfl
@[simp] theorem State.setCode_out (v : U32) (s : State) : (State.setCode v s).out = s.out := rfl
@[simp] theorem State.setCode_rdCall (v : U32) (s : State) : (State.setCode v s).rdCall = s.rdCall := rfl
@[simp] theorem State.setCode_rdOut (v : U32) (s : State) : (State.setCode v s).rdOut = s.rdOut := rfl

/-! ### `setMs` -/

@[simp] theorem State.setMs_cfg (v : U16) (s : State) : (State.setMs v s).cfg = s.cfg := rfl
@[simp] theorem State.setMs_mem (v : U16) (s : State) : (State.setMs v s).mem = s.mem := rfl
@[simp] theorem State.setMs_port (v : U16) (s : State) : (State.setMs v s).port = s.port := rfl
@[simp] theorem State.setMs_phase (v : U16) (s : State) : (State.setMs v s).phase = s.phase := rfl
@[simp] theorem State.setMs_mbase (v : U16) (s : State) : (State.setMs v s).mbase = s.mbase := rfl
@[simp] theorem State.setMs_mlen (v : U16) (s : State) : (State.setMs v s).mlen = s.mlen := rfl
@[simp] theorem State.setMs_nfr (v : U16) (s : State) : (State.setMs v s).nfr = s.nfr := rfl
@[simp] theorem State.setMs_idx (v : U16) (s : State) : (State.setMs v s).idx = s.idx := rfl
@[simp] theorem State.setMs_cur (v : U16) (s : State) : (State.setMs v s).cur = s.cur := rfl
@[simp] theorem State.setMs_flen (v : U16) (s : State) : (State.setMs v s).flen = s.flen := rfl
@[simp] theorem State.setMs_foff (v : U16) (s : State) : (State.setMs v s).foff = s.foff := rfl
@[simp] theorem State.setMs_tag (v : U16) (s : State) : (State.setMs v s).tag = s.tag := rfl
@[simp] theorem State.setMs_poff (v : U16) (s : State) : (State.setMs v s).poff = s.poff := rfl
@[simp] theorem State.setMs_plen (v : U16) (s : State) : (State.setMs v s).plen = s.plen := rfl
@[simp] theorem State.setMs_code (v : U16) (s : State) : (State.setMs v s).code = s.code := rfl
@[simp] theorem State.setMs_ms (v : U16) (s : State) : (State.setMs v s).ms = v := rfl
@[simp] theorem State.setMs_freq (v : U16) (s : State) : (State.setMs v s).freq = s.freq := rfl
@[simp] theorem State.setMs_roff (v : U16) (s : State) : (State.setMs v s).roff = s.roff := rfl
@[simp] theorem State.setMs_rlen (v : U16) (s : State) : (State.setMs v s).rlen = s.rlen := rfl
@[simp] theorem State.setMs_niv (v : U16) (s : State) : (State.setMs v s).niv = s.niv := rfl
@[simp] theorem State.setMs_pph (v : U16) (s : State) : (State.setMs v s).pph = s.pph := rfl
@[simp] theorem State.setMs_pbyte (v : U16) (s : State) : (State.setMs v s).pbyte = s.pbyte := rfl
@[simp] theorem State.setMs_pbit (v : U16) (s : State) : (State.setMs v s).pbit = s.pbit := rfl
@[simp] theorem State.setMs_scr (v : U16) (s : State) : (State.setMs v s).scr = s.scr := rfl
@[simp] theorem State.setMs_scrValid (v : U16) (s : State) : (State.setMs v s).scrValid = s.scrValid := rfl
@[simp] theorem State.setMs_out (v : U16) (s : State) : (State.setMs v s).out = s.out := rfl
@[simp] theorem State.setMs_rdCall (v : U16) (s : State) : (State.setMs v s).rdCall = s.rdCall := rfl
@[simp] theorem State.setMs_rdOut (v : U16) (s : State) : (State.setMs v s).rdOut = s.rdOut := rfl

/-! ### `setRlen` -/

@[simp] theorem State.setRlen_cfg (n : Nat) (s : State) : (State.setRlen n s).cfg = s.cfg := rfl
@[simp] theorem State.setRlen_mem (n : Nat) (s : State) : (State.setRlen n s).mem = s.mem := rfl
@[simp] theorem State.setRlen_port (n : Nat) (s : State) : (State.setRlen n s).port = s.port := rfl
@[simp] theorem State.setRlen_phase (n : Nat) (s : State) : (State.setRlen n s).phase = s.phase := rfl
@[simp] theorem State.setRlen_mbase (n : Nat) (s : State) : (State.setRlen n s).mbase = s.mbase := rfl
@[simp] theorem State.setRlen_mlen (n : Nat) (s : State) : (State.setRlen n s).mlen = s.mlen := rfl
@[simp] theorem State.setRlen_nfr (n : Nat) (s : State) : (State.setRlen n s).nfr = s.nfr := rfl
@[simp] theorem State.setRlen_idx (n : Nat) (s : State) : (State.setRlen n s).idx = s.idx := rfl
@[simp] theorem State.setRlen_cur (n : Nat) (s : State) : (State.setRlen n s).cur = s.cur := rfl
@[simp] theorem State.setRlen_flen (n : Nat) (s : State) : (State.setRlen n s).flen = s.flen := rfl
@[simp] theorem State.setRlen_foff (n : Nat) (s : State) : (State.setRlen n s).foff = s.foff := rfl
@[simp] theorem State.setRlen_tag (n : Nat) (s : State) : (State.setRlen n s).tag = s.tag := rfl
@[simp] theorem State.setRlen_poff (n : Nat) (s : State) : (State.setRlen n s).poff = s.poff := rfl
@[simp] theorem State.setRlen_plen (n : Nat) (s : State) : (State.setRlen n s).plen = s.plen := rfl
@[simp] theorem State.setRlen_code (n : Nat) (s : State) : (State.setRlen n s).code = s.code := rfl
@[simp] theorem State.setRlen_ms (n : Nat) (s : State) : (State.setRlen n s).ms = s.ms := rfl
@[simp] theorem State.setRlen_freq (n : Nat) (s : State) : (State.setRlen n s).freq = s.freq := rfl
@[simp] theorem State.setRlen_roff (n : Nat) (s : State) : (State.setRlen n s).roff = s.roff := rfl
@[simp] theorem State.setRlen_rlen (n : Nat) (s : State) : (State.setRlen n s).rlen = BitVec.ofNat 8 n := rfl
@[simp] theorem State.setRlen_niv (n : Nat) (s : State) : (State.setRlen n s).niv = s.niv := rfl
@[simp] theorem State.setRlen_pph (n : Nat) (s : State) : (State.setRlen n s).pph = s.pph := rfl
@[simp] theorem State.setRlen_pbyte (n : Nat) (s : State) : (State.setRlen n s).pbyte = s.pbyte := rfl
@[simp] theorem State.setRlen_pbit (n : Nat) (s : State) : (State.setRlen n s).pbit = s.pbit := rfl
@[simp] theorem State.setRlen_scr (n : Nat) (s : State) : (State.setRlen n s).scr = s.scr := rfl
@[simp] theorem State.setRlen_scrValid (n : Nat) (s : State) : (State.setRlen n s).scrValid = s.scrValid := rfl
@[simp] theorem State.setRlen_out (n : Nat) (s : State) : (State.setRlen n s).out = s.out := rfl
@[simp] theorem State.setRlen_rdCall (n : Nat) (s : State) : (State.setRlen n s).rdCall = s.rdCall := rfl
@[simp] theorem State.setRlen_rdOut (n : Nat) (s : State) : (State.setRlen n s).rdOut = s.rdOut := rfl

/-! ### `setRead` -/

@[simp] theorem State.setRead_cfg (v : ReadOut) (s : State) : (State.setRead v s).cfg = s.cfg := rfl
@[simp] theorem State.setRead_mem (v : ReadOut) (s : State) : (State.setRead v s).mem = s.mem := rfl
@[simp] theorem State.setRead_port (v : ReadOut) (s : State) : (State.setRead v s).port = s.port := rfl
@[simp] theorem State.setRead_phase (v : ReadOut) (s : State) : (State.setRead v s).phase = s.phase := rfl
@[simp] theorem State.setRead_mbase (v : ReadOut) (s : State) : (State.setRead v s).mbase = s.mbase := rfl
@[simp] theorem State.setRead_mlen (v : ReadOut) (s : State) : (State.setRead v s).mlen = s.mlen := rfl
@[simp] theorem State.setRead_nfr (v : ReadOut) (s : State) : (State.setRead v s).nfr = s.nfr := rfl
@[simp] theorem State.setRead_idx (v : ReadOut) (s : State) : (State.setRead v s).idx = s.idx := rfl
@[simp] theorem State.setRead_cur (v : ReadOut) (s : State) : (State.setRead v s).cur = s.cur := rfl
@[simp] theorem State.setRead_flen (v : ReadOut) (s : State) : (State.setRead v s).flen = s.flen := rfl
@[simp] theorem State.setRead_foff (v : ReadOut) (s : State) : (State.setRead v s).foff = s.foff := rfl
@[simp] theorem State.setRead_tag (v : ReadOut) (s : State) : (State.setRead v s).tag = s.tag := rfl
@[simp] theorem State.setRead_poff (v : ReadOut) (s : State) : (State.setRead v s).poff = s.poff := rfl
@[simp] theorem State.setRead_plen (v : ReadOut) (s : State) : (State.setRead v s).plen = s.plen := rfl
@[simp] theorem State.setRead_code (v : ReadOut) (s : State) : (State.setRead v s).code = s.code := rfl
@[simp] theorem State.setRead_ms (v : ReadOut) (s : State) : (State.setRead v s).ms = s.ms := rfl
@[simp] theorem State.setRead_freq (v : ReadOut) (s : State) : (State.setRead v s).freq = s.freq := rfl
@[simp] theorem State.setRead_roff (v : ReadOut) (s : State) : (State.setRead v s).roff = s.roff := rfl
@[simp] theorem State.setRead_rlen (v : ReadOut) (s : State) : (State.setRead v s).rlen = s.rlen := rfl
@[simp] theorem State.setRead_niv (v : ReadOut) (s : State) : (State.setRead v s).niv = s.niv := rfl
@[simp] theorem State.setRead_pph (v : ReadOut) (s : State) : (State.setRead v s).pph = s.pph := rfl
@[simp] theorem State.setRead_pbyte (v : ReadOut) (s : State) : (State.setRead v s).pbyte = s.pbyte := rfl
@[simp] theorem State.setRead_pbit (v : ReadOut) (s : State) : (State.setRead v s).pbit = s.pbit := rfl
@[simp] theorem State.setRead_scr (v : ReadOut) (s : State) : (State.setRead v s).scr = s.scr := rfl
@[simp] theorem State.setRead_scrValid (v : ReadOut) (s : State) : (State.setRead v s).scrValid = s.scrValid := rfl
@[simp] theorem State.setRead_out (v : ReadOut) (s : State) : (State.setRead v s).out = s.out := rfl
@[simp] theorem State.setRead_rdCall (v : ReadOut) (s : State) : (State.setRead v s).rdCall = s.rdCall := rfl
@[simp] theorem State.setRead_rdOut (v : ReadOut) (s : State) : (State.setRead v s).rdOut = v := rfl

/-! ### `takeCall` -/

@[simp] theorem State.takeCall_cfg (s : State) : (State.takeCall s).cfg = s.cfg := rfl
@[simp] theorem State.takeCall_mem (s : State) : (State.takeCall s).mem = s.mem := rfl
@[simp] theorem State.takeCall_port (s : State) : (State.takeCall s).port = s.port := rfl
@[simp] theorem State.takeCall_phase (s : State) : (State.takeCall s).phase = s.phase := rfl
@[simp] theorem State.takeCall_mbase (s : State) : (State.takeCall s).mbase = s.mbase := rfl
@[simp] theorem State.takeCall_mlen (s : State) : (State.takeCall s).mlen = s.mlen := rfl
@[simp] theorem State.takeCall_nfr (s : State) : (State.takeCall s).nfr = s.nfr := rfl
@[simp] theorem State.takeCall_idx (s : State) : (State.takeCall s).idx = s.idx := rfl
@[simp] theorem State.takeCall_cur (s : State) : (State.takeCall s).cur = s.cur := rfl
@[simp] theorem State.takeCall_flen (s : State) : (State.takeCall s).flen = s.flen := rfl
@[simp] theorem State.takeCall_foff (s : State) : (State.takeCall s).foff = s.foff := rfl
@[simp] theorem State.takeCall_tag (s : State) : (State.takeCall s).tag = s.tag := rfl
@[simp] theorem State.takeCall_poff (s : State) : (State.takeCall s).poff = s.poff := rfl
@[simp] theorem State.takeCall_plen (s : State) : (State.takeCall s).plen = s.plen := rfl
@[simp] theorem State.takeCall_code (s : State) : (State.takeCall s).code = s.code := rfl
@[simp] theorem State.takeCall_ms (s : State) : (State.takeCall s).ms = s.ms := rfl
@[simp] theorem State.takeCall_freq (s : State) : (State.takeCall s).freq = s.freq := rfl
@[simp] theorem State.takeCall_roff (s : State) : (State.takeCall s).roff = s.roff := rfl
@[simp] theorem State.takeCall_rlen (s : State) : (State.takeCall s).rlen = s.rlen := rfl
@[simp] theorem State.takeCall_niv (s : State) : (State.takeCall s).niv = s.niv := rfl
@[simp] theorem State.takeCall_pph (s : State) : (State.takeCall s).pph = s.pph := rfl
@[simp] theorem State.takeCall_pbyte (s : State) : (State.takeCall s).pbyte = s.pbyte := rfl
@[simp] theorem State.takeCall_pbit (s : State) : (State.takeCall s).pbit = s.pbit := rfl
@[simp] theorem State.takeCall_scr (s : State) : (State.takeCall s).scr = s.scr := rfl
@[simp] theorem State.takeCall_scrValid (s : State) : (State.takeCall s).scrValid = s.scrValid := rfl
@[simp] theorem State.takeCall_out (s : State) : (State.takeCall s).out = s.out := rfl
@[simp] theorem State.takeCall_rdCall (s : State) : (State.takeCall s).rdCall = none := rfl
@[simp] theorem State.takeCall_rdOut (s : State) : (State.takeCall s).rdOut = s.rdOut := rfl

/-! ### `M[k]`: no move but the acceptance of a message changes what the message reads -/

@[simp] theorem State.emit_msgByte (e : Event) (s : State) (j : Nat) : (State.emit e s).msgByte j = s.msgByte j := rfl
@[simp] theorem State.raiseDiag_msgByte (k : DiagKind) (s : State) (j : Nat) : (State.raiseDiag k s).msgByte j = s.msgByte j := rfl
@[simp] theorem State.startWalk_msgByte (n : Byte) (s : State) (j : Nat) : (State.startWalk n s).msgByte j = s.msgByte j := rfl
@[simp] theorem State.takeLength_msgByte (len : Byte) (s : State) (j : Nat) : (State.takeLength len s).msgByte j = s.msgByte j := rfl
@[simp] theorem State.yieldFrame_msgByte (s : State) (j : Nat) : (State.yieldFrame s).msgByte j = s.msgByte j := rfl
@[simp] theorem State.endCycle_msgByte (s : State) (j : Nat) : (State.endCycle s).msgByte j = s.msgByte j := rfl
@[simp] theorem State.loadTag_msgByte (tag : Byte) (n : Nat) (s : State) (j : Nat) : (State.loadTag tag n s).msgByte j = s.msgByte j := rfl
@[simp] theorem State.loadRaw_msgByte (f : U32) (n : Nat) (s : State) (j : Nat) : (State.loadRaw f n s).msgByte j = s.msgByte j := rfl
@[simp] theorem State.copyToScratch_msgByte (bs : List Byte) (s : State) (j : Nat) : (State.copyToScratch bs s).msgByte j = s.msgByte j := rfl
@[simp] theorem State.releaseScratch_msgByte (s : State) (j : Nat) : (State.releaseScratch s).msgByte j = s.msgByte j := rfl
@[simp] theorem State.loadPana_msgByte (r : PanaRegs) (s : State) (j : Nat) : (State.loadPana r s).msgByte j = s.msgByte j := rfl
@[simp] theorem State.setCode_msgByte (v : U32) (s : State) (j : Nat) : (State.setCode v s).msgByte j = s.msgByte j := rfl
@[simp] theorem State.setMs_msgByte (v : U16) (s : State) (j : Nat) : (State.setMs v s).msgByte j = s.msgByte j := rfl
@[simp] theorem State.setRlen_msgByte (n : Nat) (s : State) (j : Nat) : (State.setRlen n s).msgByte j = s.msgByte j := rfl
@[simp] theorem State.setRead_msgByte (v : ReadOut) (s : State) (j : Nat) : (State.setRead v s).msgByte j = s.msgByte j := rfl
@[simp] theorem State.takeCall_msgByte (s : State) (j : Nat) : (State.takeCall s).msgByte j = s.msgByte j := rfl

end Sys2Proof.Machine
end

