-- ==== Sys2Proof/Laws/Handlers.lean ====
section
/-! SUPPORT. What the meaning of each instruction can do, said once in terms of the register moves: the cases a proof about
`exec` splits into, instead of unfolding a meaning. -/

namespace Sys2Proof.Machine

/-- `STD`: the diagnostic, or the code sent. -/
theorem execStd_cases (tag : Byte) (p : List Byte) (s : State) :
    (p.length ≠ 4 ∧
      execStd tag p s = .next ((s.loadTag tag p.length).raiseDiag .unexpectedPayloadSize)) ∨
    (p.length = 4 ∧
      execStd tag p s =
        .next (((s.loadTag tag p.length).setCode (BitVec.ofNat 32 (asm s.cfg.byteOrder p))).emit
          (.genericCode tag (BitVec.ofNat 32 (asm s.cfg.byteOrder p)) 32))) := by
  by_cases h : p.length = 4
  · right
    have hv := viewRd_ok s.cfg 32 p 0 (by omega)
    rw [List.drop_zero, List.take_of_length_le (by omega)] at hv
    exact ⟨h, by simp [execStd, h, hv]⟩
  · exact .inl ⟨h, by simp [execStd, h]⟩

/-- `DELAY`: the diagnostic, or the wait. -/
theorem execDelay_cases (p : List Byte) (s : State) :
    (p.length ≠ 2 ∧
      execDelay p s = .next ((s.loadTag s.cfg.tagDelay p.length).raiseDiag .unexpectedPayloadSize)) ∨
    (p.length = 2 ∧
      execDelay p s =
        .next (((s.loadTag s.cfg.tagDelay p.length).setMs (BitVec.ofNat 16 (asm s.cfg.byteOrder p))).emit
          (.wait (BitVec.ofNat 16 (asm s.cfg.byteOrder p))))) := by
  by_cases h : p.length = 2
  · right
    have hv := viewRd_ok s.cfg 16 p 0 (by omega)
    rw [List.drop_zero, List.take_of_length_le (by omega)] at hv
    exact ⟨h, by simp [execDelay, h, hv]⟩
  · exact .inl ⟨h, by simp [execDelay, h]⟩

/-- Going through the scratch buffer ends as reading in place does (R177): emitted, and released. -/
theorem rawViaScratch_eq (p : List Byte) (n : Nat) (s : State) (hp : p.length = n + 4)
    (hn : n % s.cfg.iwb.bytes = 0) :
    rawViaScratch p n s =
      .next (s.emit (.rawIntervals s.freq (remainderIntervals s.cfg (p.drop 4)))).releaseScratch := by
  have hl : (p.drop 4).length = n := by rw [List.length_drop]; omega
  have hw : n / s.cfg.iwb.bytes * s.cfg.iwb.bytes = (p.drop 4).length := by
    rw [hl]; exact Nat.div_mul_cancel (Nat.dvd_of_mod_eq_zero hn)
  have h := rdIntervals_ok s.cfg n (Memory.read (Memory.writeBytes [] 0 (p.drop 4))) 0 _ (p.drop 4) hw (by omega)
    fun k hk => Memory.holds_writeBytes [] 0 _ k hk
  simp only [rawViaScratch, State.copyToScratch_scr, h]
  rfl

theorem rawInPlace_eq (p : List Byte) (n : Nat) (s : State) (hp : p.length = n + 4)
    (hn : n % s.cfg.iwb.bytes = 0) :
    rawInPlace p n s =
      .next (s.emit (.rawIntervals s.freq (remainderIntervals s.cfg (p.drop 4)))).releaseScratch := by
  have hl : (p.drop 4).length = n := by rw [List.length_drop]; omega
  have hw : n / s.cfg.iwb.bytes * s.cfg.iwb.bytes = (p.drop 4).length := by
    rw [hl]; exact Nat.div_mul_cancel (Nat.dvd_of_mod_eq_zero hn)
  have h := rdIntervals_ok s.cfg p.length (viewByte p) 4 _ (p.drop 4) hw (by omega) fun k hk => by
    simp [viewByte, List.getElem?_drop]
  simp only [rawInPlace, h]

/-- `RAW`: either diagnostic of the shape check, or the intervals sent. -/
theorem execRaw_cases (p : List Byte) (s : State) :
    (p.length < 4 ∧
      execRaw p s = .next ((s.loadTag s.cfg.tagRaw p.length).raiseDiag .invalidRawLength)) ∨
    (4 ≤ p.length ∧ (p.length - 4) % s.cfg.iwb.bytes ≠ 0 ∧
      execRaw p s =
        .next (((s.loadTag s.cfg.tagRaw p.length).setRlen (p.length - 4)).raiseDiag .invalidRawLength)) ∨
    (4 ≤ p.length ∧ (p.length - 4) % s.cfg.iwb.bytes = 0 ∧
      let f : U32 := BitVec.ofNat 32 (asm s.cfg.byteOrder (p.take 4))
      execRaw p s =
        .next (((((s.loadTag s.cfg.tagRaw p.length).setRlen (p.length - 4)).loadRaw f (p.length - 4)).emit
          (.rawIntervals f (remainderIntervals s.cfg (p.drop 4)))).releaseScratch)) := by
  by_cases h : p.length < 4
  · exact .inl ⟨h, by simp [execRaw, h]⟩
  · by_cases h2 : (p.length - 4) % s.cfg.iwb.bytes = 0
    · refine .inr (.inr ⟨by omega, h2, ?_⟩)
      have hv := viewRd_ok s.cfg 32 p 0 (by omega)
      rw [List.drop_zero] at hv
      simp only [execRaw, if_neg h, h2, ne_eq, not_true_eq_false, if_false, hv]
      split_ifs
      · refine (rawViaScratch_eq p (p.length - 4) (State.loadRaw _ _ _) (by omega) ?_).trans rfl
        exact h2
      · refine (rawInPlace_eq p (p.length - 4) (State.loadRaw _ _ _) (by omega) ?_).trans rfl
        exact h2
    · exact .inr (.inl ⟨by omega, h2, by simp [execRaw, h, h2]⟩)

/-- `PANA`: the encoder's registers as the machine leaves them and one waveform, or what a failed read does. -/
theorem execPana_cases (p : List Byte) (s : State) :
    (∃ ps r, execPana p s =
      .next (((s.loadTag s.cfg.tagPana p.length).loadPana r).emit (.rawWaveform s.cfg.panaFreq ps))) ∨
    ∃ e, execPana p s = (s.loadTag s.cfg.tagPana p.length).readFailed e := by
  cases h : panaRun s.cfg p (panaFuel p.length) PanaRegs.entry with
  | error e => exact .inr ⟨e, by simp only [execPana, h]⟩
  | ok pr => exact .inl ⟨pr.1, pr.2, by simp only [execPana, h]⟩

/-- What a failed read leaves when the machine goes on. -/
theorem readFailed_next {e : ReadError} {s t : State} (h : s.readFailed e = .next t) :
    t = s.raiseDiag .readOutOfBounds := by
  cases e <;> simp [State.readFailed] at h
  exact h.symm

/-- A reader operation that completes sets the reader's output and nothing else. -/
theorem returnRead_next {r : Except ReadError ReadOut} {s t : State} (h : s.returnRead r = .next t) :
    ∃ v, t = s.setRead v := by
  unfold State.returnRead at h
  split at h <;> simp at h
  · exact ⟨_, h.symm⟩
  · exact ⟨_, h.symm⟩

/-- Every instruction that goes on, in terms of the register moves: a diagnostic, after the dispatcher's registers where there
is a tag; an event of its own with its handler's registers; or, for a reader operation, the reader's output. -/
theorem exec_next_cases {i : Instr} {s t : State} (h : exec i s = .next t) :
   (∃ k, i = .empty ∧ t = s.raiseDiag k) ∨
   (∃ tag p k, (i = .std tag p ∨ i = .unknown tag p) ∧ t = (s.loadTag tag p.length).raiseDiag k) ∨
   (∃ tag p k, (i = .delay p ∨ i = .raw p ∨ i = .pana p) ∧ t = (s.loadTag tag p.length).raiseDiag k) ∨
   (∃ tag p v, i = .std tag p ∧ t = ((s.loadTag tag p.length).setCode v).emit (.genericCode tag v 32)) ∨
   (∃ tag p v, i = .delay p ∧ t = ((s.loadTag tag p.length).setMs v).emit (.wait v)) ∨
   (∃ tag p k, i = .raw p ∧ t = ((s.loadTag tag p.length).setRlen (p.length-4)).raiseDiag k) ∨
   (∃ tag p f e, i = .raw p ∧ t = (((((s.loadTag tag p.length).setRlen (p.length-4)).loadRaw f (p.length-4)).emit e).releaseScratch)) ∨
   (∃ tag p r e, i = .pana p ∧ t = ((s.loadTag tag p.length).loadPana r).emit e) ∨
   (∃ v, i.isFrame = false ∧ t = s.setRead v) := by
  cases i with
  | empty => exact .inl ⟨_, rfl, (Host.Outcome.next.inj h).symm⟩
  | std tag p =>
    simp only [exec] at h
    rcases execStd_cases tag p s with ⟨_, e⟩ | ⟨_, e⟩ <;> rw [e] at h
    · exact .inr (.inl ⟨_, _, _, .inl rfl, (Host.Outcome.next.inj h).symm⟩)
    · exact .inr (.inr (.inr (.inl ⟨_, _, _, rfl, (Host.Outcome.next.inj h).symm⟩)))
  | delay p =>
    simp only [exec] at h
    rcases execDelay_cases p s with ⟨_, e⟩ | ⟨_, e⟩ <;> rw [e] at h
    · exact .inr (.inr (.inl ⟨_, _, _, .inl rfl, (Host.Outcome.next.inj h).symm⟩))
    · exact .inr (.inr (.inr (.inr (.inl ⟨_, _, _, rfl, (Host.Outcome.next.inj h).symm⟩))))
  | raw p =>
    simp only [exec] at h
    rcases execRaw_cases p s with ⟨_, e⟩ | ⟨_, _, e⟩ | ⟨_, _, e⟩ <;> rw [e] at h
    · exact .inr (.inr (.inl ⟨_, _, _, .inr (.inl rfl), (Host.Outcome.next.inj h).symm⟩))
    · exact .inr (.inr (.inr (.inr (.inr (.inl ⟨_, _, _, rfl, (Host.Outcome.next.inj h).symm⟩)))))
    · exact .inr (.inr (.inr (.inr (.inr (.inr (.inl ⟨_, _, _, _, rfl, (Host.Outcome.next.inj h).symm⟩))))))
  | pana p =>
    simp only [exec] at h
    rcases execPana_cases p s with ⟨ps, r, e⟩ | ⟨e', e⟩ <;> rw [e] at h
    · exact .inr (.inr (.inr (.inr (.inr (.inr (.inr (.inl ⟨_, _, _, _, rfl, (Host.Outcome.next.inj h).symm⟩)))))))
    · exact .inr (.inr (.inl ⟨_, _, _, .inr (.inr rfl), readFailed_next h⟩))
  | unknown tag p => exact .inr (.inl ⟨_, _, _, .inr rfl, (Host.Outcome.next.inj h).symm⟩)
  | rd8 o => exact .inr (.inr (.inr (.inr (.inr (.inr (.inr (.inr ((returnRead_next h).imp fun v hv => ⟨rfl, hv⟩))))))))
  | rd16 o => exact .inr (.inr (.inr (.inr (.inr (.inr (.inr (.inr ((returnRead_next h).imp fun v hv => ⟨rfl, hv⟩))))))))
  | rd32 o => exact .inr (.inr (.inr (.inr (.inr (.inr (.inr (.inr ((returnRead_next h).imp fun v hv => ⟨rfl, hv⟩))))))))
  | rdiw o => exact .inr (.inr (.inr (.inr (.inr (.inr (.inr (.inr ((returnRead_next h).imp fun v hv => ⟨rfl, hv⟩))))))))

end Sys2Proof.Machine
end

