-- ==== Sys2Proof/Laws/PerInstr.lean ====
section
/-! SUPPORT. Statements made per instruction, as syntax: one lemma per constructor of `Instr`. -/

namespace Sys2Proof.Laws

namespace EncodeForm

/-- R72, R104: a well-formed frame is written as 1 to 256 bytes whose first byte counts the others; a reader operation is
written as a call with a legal width select. -/
def Statement (i : Instr) : Prop :=
  ∀ c : Cfg, i.wf c = true →
    match encode c i with
    | .frame bytes =>
      i.isFrame = true ∧ ∃ len body, bytes = len :: body ∧ body.length = len.toNat
    | .call wsel _ => i.isFrame = false ∧ wsel ≠ 3

/-- The form of every frame that carries a tag. -/
theorem frameBytes_form (tag : Byte) (p : List Byte) (h : payloadFits p = true) :
    ∃ len body, frameBytes tag p = len :: body ∧ body.length = len.toNat := by
  have hl : p.length ≤ 254 := by simpa [payloadFits] using h
  refine ⟨_, _, rfl, ?_⟩
  rw [BitVec.toNat_ofNat, List.length_cons]
  omega

theorem empty : Statement .empty := fun _ _ => ⟨rfl, _, _, rfl, rfl⟩

theorem std (tag : Byte) (payload : List Byte) : Statement (.std tag payload) := fun _ h =>
  ⟨rfl, frameBytes_form _ _ (Bool.and_eq_true_iff.1 h).2⟩

theorem delay (payload : List Byte) : Statement (.delay payload) := fun _ h => ⟨rfl, frameBytes_form _ _ h⟩

theorem raw (payload : List Byte) : Statement (.raw payload) := fun _ h => ⟨rfl, frameBytes_form _ _ h⟩

theorem pana (payload : List Byte) : Statement (.pana payload) := fun _ h => ⟨rfl, frameBytes_form _ _ h⟩

theorem unknown (tag : Byte) (payload : List Byte) : Statement (.unknown tag payload) := fun _ h =>
  ⟨rfl, frameBytes_form _ _ (Bool.and_eq_true_iff.1 h).2⟩

theorem rd8 (off : Offset) : Statement (.rd8 off) := fun _ _ => ⟨rfl, by decide⟩

theorem rd16 (off : Offset) : Statement (.rd16 off) := fun _ _ => ⟨rfl, by decide⟩

theorem rd32 (off : Offset) : Statement (.rd32 off) := fun _ _ => ⟨rfl, by decide⟩

theorem rdiw (off : Offset) : Statement (.rdiw off) := fun c _ =>
  ⟨rfl, by simp only [Cfg.intervalSelect]; cases c.iwb <;> decide⟩

end EncodeForm

end Sys2Proof.Laws
end

