-- ==== Sys2Proof/Laws/Step.lean ====
section
/-! SUPPORT. What a step can do, said once: the moves of the frame decoder as cases, and the reading of a message the buffer
memory holds. -/

namespace Sys2Proof.Machine

/-- A step in a walk, with no reader call pending. -/
theorem step_run (s : State) (hw : s.cfg.wf = true) (hc : s.rdCall = none) (hp : s.phase = .run) :
    step s = if s.idx = s.nfr then s.tailCheck else s.frameStep := by
  simp [step, State.blockStep, hw, hc, hp]

/-- A step of an idle block with nothing presented. -/
theorem step_rest (s : State) (hw : s.cfg.wf = true) (hc : s.rdCall = none) (hp : s.phase = .idle)
    (ht : s.port = none) : step s = .next s := by
  simp [step, State.blockStep, hw, hc, hp, ht]

/-- A step of an idle block with a transaction presented. -/
theorem step_accept (s : State) (t : Transaction) (hw : s.cfg.wf = true) (hc : s.rdCall = none)
    (hp : s.phase = .idle) (ht : s.port = some t) : step s = s.accept t := by
  simp [step, State.blockStep, hw, hc, hp, ht]

/-- A step with a reader call pending. -/
theorem step_call (s : State) (call : ReaderCall) (hw : s.cfg.wf = true) (hc : s.rdCall = some call) :
    step s = s.readerStep call := by
  simp [step, State.blockStep, hw, hc]

/-- Every step that goes on is one of five: a reader call, rest, an acceptance, a tail check, a turn of the loop. -/
theorem step_next_cases {s t : State} (h : step s = .next t) :
    s.cfg.wf = true ∧
      ((∃ call, s.rdCall = some call ∧ s.readerStep call = .next t) ∨
        (s.rdCall = none ∧ s.phase = .idle ∧ s.port = none ∧ t = s) ∨
        (∃ tr, s.rdCall = none ∧ s.phase = .idle ∧ s.port = some tr ∧ s.accept tr = .next t) ∨
        (s.rdCall = none ∧ s.phase = .run ∧ s.idx = s.nfr ∧ s.tailCheck = .next t) ∨
        (s.rdCall = none ∧ s.phase = .run ∧ s.idx ≠ s.nfr ∧ s.frameStep = .next t)) := by
  cases hw : s.cfg.wf with
  | false => simp [step, State.blockStep, hw] at h
  | true =>
    refine ⟨rfl, ?_⟩
    cases hc : s.rdCall with
    | some call =>
      rw [step_call s call hw hc] at h
      exact .inl ⟨call, rfl, h⟩
    | none =>
      cases hp : s.phase with
      | idle =>
        cases ht : s.port with
        | none =>
          rw [step_rest s hw hc hp ht] at h
          exact .inr (.inl ⟨rfl, rfl, rfl, by simpa using h.symm⟩)
        | some tr =>
          rw [step_accept s tr hw hc hp ht] at h
          exact .inr (.inr (.inl ⟨tr, rfl, rfl, rfl, h⟩))
      | run =>
        rw [step_run s hw hc hp] at h
        by_cases hi : s.idx = s.nfr
        · rw [if_pos hi] at h
          exact .inr (.inr (.inr (.inl ⟨rfl, rfl, hi, h⟩)))
        · rw [if_neg hi] at h
          exact .inr (.inr (.inr (.inr ⟨rfl, rfl, hi, h⟩)))

/-- A reader call that goes on sets the reader's output. -/
theorem readerStep_next {s t : State} {call : ReaderCall} (h : s.readerStep call = .next t) :
    ∃ v, t = s.takeCall.setRead v := by
  obtain ⟨w, off⟩ := call
  cases w <;> exact returnRead_next h

/-- The frames that are taken when the machine goes on: `s` is the state with the length byte in `FLEN`. -/
theorem takeFrame_next_cases {s t : State} (h : s.takeFrame = .next t) :
    (s.mlen - s.cur < s.flen.setWidth 32 ∧ t = s.raiseDiag .frameOverrun) ∨
    (s.msgBytes s.cur s.flen.toNat = .error .outOfBounds ∧ ¬ s.mlen - s.cur < s.flen.setWidth 32 ∧
      t = s.raiseDiag .readOutOfBounds) ∨
    (∃ body : List Byte, ¬ s.mlen - s.cur < s.flen.setWidth 32 ∧ s.msgBytes s.cur s.flen.toNat = .ok body ∧
      exec (decodeBody s.cfg body) s.yieldFrame = .next t) := by
  unfold State.takeFrame at h
  split_ifs at h with h2
  · exact .inl ⟨h2, (Host.Outcome.next.inj h).symm⟩
  · right
    cases hb : s.msgBytes s.cur s.flen.toNat with
    | error e =>
      rw [hb] at h
      cases e with
      | outOfBounds => exact .inl ⟨rfl, h2, readFailed_next h⟩
      | noValue => simp [State.readFailed] at h
    | ok body =>
      rw [hb] at h
      exact .inr ⟨body, h2, rfl, h⟩

/-- The turns of the loop that go on. -/
theorem frameStep_next_cases {s t : State} (h : s.frameStep = .next t) :
    (s.cur = s.mlen ∧ t = s.raiseDiag .trailingOrTruncatedData) ∨
    (s.cur ≠ s.mlen ∧ s.msgRd 8 s.cur = .error .outOfBounds ∧ t = s.raiseDiag .readOutOfBounds) ∨
    (∃ len : Byte, s.cur ≠ s.mlen ∧ s.msgRd 8 s.cur = .ok len ∧ (s.takeLength len).takeFrame = .next t) := by
  unfold State.frameStep at h
  split_ifs at h with h1
  · exact .inl ⟨h1, (Host.Outcome.next.inj h).symm⟩
  · right
    cases hr : s.msgRd 8 s.cur with
    | error e =>
      rw [hr] at h
      cases e with
      | outOfBounds => exact .inl ⟨h1, rfl, readFailed_next h⟩
      | noValue => simp [State.readFailed] at h
    | ok len =>
      rw [hr] at h
      exact .inr ⟨len, h1, rfl, h⟩

/-- `RD8` of the message where the byte is there. -/
theorem msgRd8_ok (s : State) (off : Offset) (b : Byte) (h : off.toNat < s.mlen.toNat)
    (hb : s.msgByte off.toNat = some b) : s.msgRd 8 off = .ok b := by
  have hr := rd_ok s.cfg.byteOrder 8 s.mlen.toNat s.msgByte off.toNat [b] rfl (by simpa using h) (by
    intro k hk
    have : k = 0 := by simpa using hk
    subst this
    simpa using hb)
  rw [State.msgRd, hr]
  congr 1
  cases s.cfg.byteOrder <;> simp [asm, asmLE]

end Sys2Proof.Machine
end

