-- ==== Sys2Proof/Tests/Slice0.lean ====
section
/-! SUPPORT. Tests of the model against the spec's own encodings and vectors (95_test_vectors.md; the vector is named in each
test), the refusals of the well-formedness checks, and a witness for the hypotheses of every statement. -/

namespace Sys2Proof.Tests

open Sys2Proof.Machine

/-! ### The configurations of 95_test_vectors.md and small states -/

/-- `H`: `LE`, `IWB` = 2, `STD_TAG_SET` = {3}. -/
def cfgH : Cfg where
  byteOrder := .le
  iwb := .two
  tagDelay := 0xEF
  tagRaw := 0xF0
  tagPana := 0xF1
  stdTagSet := 8

/-- `H3`: `STD_TAG_SET` = {1, 3, 4}. -/
def cfgH3 : Cfg := { cfgH with stdTagSet := 26 }

/-- `HB`: `BE`. -/
def cfgHB : Cfg := { cfgH with byteOrder := .be }

/-- `H4`: `IWB` = 4. -/
def cfgH4 : Cfg := { cfgH with iwb := .four }

/-- A configuration, and the bytes of a message in the buffer memory from address `base` on. -/
def holding (c : Cfg) (base : Addr) (bytes : List Byte) : State :=
  { State.reset with cfg := c, mem := Memory.writeBytes [] base.toNat bytes }

/-- The message lies ready at the input. -/
def offering (c : Cfg) (base : Addr) (bytes : List Byte) : State :=
  { holding c base bytes with port := some ⟨base, BitVec.ofNat 32 bytes.length⟩ }

/-- The message has been accepted and its count byte read. -/
def walking (c : Cfg) (base : Addr) (bytes : List Byte) : State :=
  { holding c base bytes with
    phase := .run, mbase := base, mlen := BitVec.ofNat 32 bytes.length, nfr := bytes.headD 0, cur := 1 }

/-- The message is latched and a reader call is pending. -/
def calling (c : Cfg) (bytes : List Byte) (w : ReadWidth) (off : Offset) : State :=
  { walking c 0 bytes with rdCall := some ⟨w, off⟩ }

/-- The state an outcome goes on with. -/
def next? : Host.Outcome State Fault Refusal → Option State
  | .next t => some t
  | .fault _ => none
  | .refused _ => none

/-- `OUT` after a step. -/
def outOf (o : Host.Outcome State Fault Refusal) : Option (List Event) := (next? o).map State.out

/-- What the reader returned in a step. -/
def readOf (o : Host.Outcome State Fault Refusal) : Option ReadOut := (next? o).map State.rdOut

/-- The refusal of a step. -/
def refusalOf : Host.Outcome State Fault Refusal → Option Refusal
  | .next _ => none
  | .fault _ => none
  | .refused r => some r

/-! ### Well-formedness refuses -/

theorem test_wf_std_tag_not_in_set : Instr.wf cfgH (.std 4 [1, 2, 3, 4]) = false := by decide

theorem test_wf_std_reserved_tag : Instr.wf { cfgH with stdTagSet := BitVec.allOnes 239 } (.std 239 []) = false := by decide

theorem test_wf_payload_too_long : Instr.wf cfgH (.delay (List.replicate 255 0)) = false := by
  rw [Instr.wf, payloadFits, List.length_replicate]; decide

theorem test_wf_raw_too_long : Instr.wf cfgH (.raw (List.replicate 255 0)) = false := by
  rw [Instr.wf, payloadFits, List.length_replicate]; decide

theorem test_wf_pana_too_long : Instr.wf cfgH (.pana (List.replicate 255 0)) = false := by
  rw [Instr.wf, payloadFits, List.length_replicate]; decide

theorem test_wf_unknown_standard_tag : Instr.wf cfgH (.unknown 3 []) = false := by decide

theorem test_wf_unknown_custom_tags :
    Instr.wf cfgH (.unknown 0xEF []) = false ∧ Instr.wf cfgH (.unknown 0xF0 []) = false ∧
      Instr.wf cfgH (.unknown 0xF1 []) = false := by decide

theorem test_wf_cfg :
    cfgH.wf = true ∧ Cfg.wf { cfgH with tagDelay := 238 } = false ∧ Cfg.wf { cfgH with tagRaw := 238 } = false ∧
      Cfg.wf { cfgH with tagPana := 238 } = false ∧ Cfg.wf { cfgH with tagRaw := 0xEF } = false ∧
      Cfg.wf { cfgH with tagPana := 0xEF } = false ∧ Cfg.wf { cfgH with tagPana := 0xF0 } = false := by decide

theorem test_wf_line_interval_too_wide : Line.wf cfgH (.raw 38000 [65536]) = false := by decide

/-! ### Decoding: words written out from R72 to R79, R82 and R104 -/

theorem test_decode_empty : decode cfgH (.frame [0b00000000, 0xAA]) = .ok .empty [0xAA] := by decide

theorem test_decode_std :
    decode cfgH (.frame [0b00000101, 0b00000011, 0xEF, 0xBE, 0xAD, 0xDE]) = .ok (.std 3 [0xEF, 0xBE, 0xAD, 0xDE]) [] := by
  decide

theorem test_decode_delay : decode cfgH (.frame [0b00000011, 0b11101111, 0xE8, 0x03]) = .ok (.delay [0xE8, 0x03]) [] := by
  decide

theorem test_decode_raw :
    decode cfgH (.frame [0b00000111, 0b11110000, 0x70, 0x94, 0, 0, 0x84, 0x03]) =
      .ok (.raw [0x70, 0x94, 0, 0, 0x84, 0x03]) [] := by decide

theorem test_decode_pana : decode cfgH (.frame [0b00000010, 0b11110001, 0xA5]) = .ok (.pana [0xA5]) [] := by decide

theorem test_decode_unknown : decode cfgH (.frame [0b00000010, 0b11101110, 0x00]) = .ok (.unknown 0xEE [0x00]) [] := by decide

theorem test_decode_classes :
    [(0 : Byte), 3, 4, 238, 239, 240, 241, 242, 255].map cfgH.classify =
      [.unrecognized, .standard, .unrecognized, .unrecognized, .delay, .raw, .panasonicRaw, .unrecognized,
        .unrecognized] := by decide

theorem test_decode_cut :
    decode cfgH (.frame []) = .error .noLengthByte ∧
      decode cfgH (.frame [5, 0xF1, 1]) = .error .bodyOverrun := by decide

theorem test_decode_calls :
    decode cfgH (.call 0b00 7) = .ok (.rd8 7) [] ∧ decode cfgH (.call 0b01 7) = .ok (.rd16 7) [] ∧
      decode cfgH (.call 0b10 7) = .ok (.rd32 7) [] ∧ decode cfgH (.call 0b11 7) = .error .reservedWidthSelect := by
  decide

theorem test_decode_rdiw :
    decode cfgH (encode cfgH (.rdiw 9)) = .ok (.rd16 9) [] ∧ decode cfgH4 (encode cfgH4 (.rdiw 9)) = .ok (.rd32 9) [] := by
  decide

theorem test_table_words :
    decodeTableWord 8 0 = some .empty ∧ decodeTableWord 8 0xEF = some (.delay [0, 0]) ∧
      decodeTableWord 8 0xF0 = some (.raw [0, 0, 0, 0]) ∧ decodeTableWord 8 0xF1 = some (.pana []) ∧
      decodeTableWord 8 1 = some (.rd16 0) ∧ decodeTableWord 8 2 = some (.rd32 0) ∧ decodeTableWord 2 0 = some (.rd8 0) := by
  decide

theorem test_table_long_word : decodeTableWord 24 0x0AEF03 = some (.delay [0x0A, 0x00]) := by decide

theorem test_withFetchWord :
    outOf (step ({ State.reset with cfg := cfgH }.withFetchWord 8 0xEF)) = some [.wait 0] ∧
      readOf (step ({ State.reset with cfg := cfgH }.withFetchWord 8 1)) = some .outOfBounds := by decide

/-- The same from the reset state of this hardware itself, whose standard tag set is opaque. -/
theorem test_withFetchWord_from_reset :
    outOf (step (State.reset.withFetchWord 8 0xF1)) =
        some [.rawWaveform 36700 [⟨true, 3456⟩, ⟨false, 1728⟩, ⟨true, 432⟩, ⟨false, 0⟩]] ∧
      outOf (step (State.reset.withFetchWord 8 0xF2)) = some [.diag (.unknownEncoding 0xF2)] ∧
      readOf (step (State.reset.withFetchWord 8 2)) = some .outOfBounds := by decide

/-! ### One step of each instruction -/

/-- V-FD5. -/
theorem test_empty : outOf (step (walking cfgH 0 [1, 0])) = some [.diag .emptyFrame] := by decide

/-- V-DS1, V-DS2, V-DS18. -/
theorem test_std :
    outOf (step (walking cfgH 0 [1, 5, 3, 0xEF, 0xBE, 0xAD, 0xDE])) = some [.genericCode 3 0xDEADBEEF 32] ∧
      outOf (step (walking cfgHB 0 [1, 5, 3, 0xEF, 0xBE, 0xAD, 0xDE])) = some [.genericCode 3 0xEFBEADDE 32] ∧
      outOf (step (walking cfgH3 0 [1, 5, 4, 1, 2, 3, 4])) = some [.genericCode 4 0x04030201 32] := by decide

/-- V-DS4, V-DS6. -/
theorem test_std_wrong_size :
    outOf (step (walking cfgH 0 [1, 4, 3, 1, 2, 3])) = some [.diag .unexpectedPayloadSize] ∧
      outOf (step (walking cfgH 0 [1, 1, 3])) = some [.diag .unexpectedPayloadSize] := by decide

/-- V-DS7 to V-DS10. -/
theorem test_delay :
    outOf (step (walking cfgH 0 [1, 3, 0xEF, 0xE8, 0x03])) = some [.wait 1000] ∧
      outOf (step (walking cfgHB 0 [1, 3, 0xEF, 0xE8, 0x03])) = some [.wait 59395] ∧
      outOf (step (walking cfgH 0 [1, 3, 0xEF, 0, 0])) = some [.wait 0] := by decide

/-- V-DS11, V-DS13. -/
theorem test_delay_wrong_size :
    outOf (step (walking cfgH 0 [1, 2, 0xEF, 5])) = some [.diag .unexpectedPayloadSize] ∧
      outOf (step (walking cfgH 0 [1, 1, 0xEF])) = some [.diag .unexpectedPayloadSize] := by decide

/-- V-DS14, V-DS17. -/
theorem test_unknown :
    outOf (step (walking cfgH 0 [1, 1, 0xFF])) = some [.diag (.unknownEncoding 0xFF)] ∧
      outOf (step (walking cfgH 0 [1, 5, 4, 1, 2, 3, 4])) = some [.diag (.unknownEncoding 4)] := by decide

/-- S4: misaligned at 0x1000 and aligned at 0x1001; V-RAW5, V-RAW7, V-RAW11. -/
theorem test_raw :
    outOf (step (walking cfgH 0x1000 [1, 11, 0xF0, 0x70, 0x94, 0, 0, 0x84, 0x03, 0xC2, 0x01, 0x84, 0x03])) =
        some [.rawIntervals 38000 (.w16 [900, 450, 900])] ∧
      outOf (step (walking cfgH 0x1001 [1, 11, 0xF0, 0x70, 0x94, 0, 0, 0x84, 0x03, 0xC2, 0x01, 0x84, 0x03])) =
        some [.rawIntervals 38000 (.w16 [900, 450, 900])] ∧
      outOf (step (walking cfgH 0 [1, 5, 0xF0, 0x70, 0x94, 0, 0])) = some [.rawIntervals 38000 (.w16 [])] ∧
      outOf (step (walking cfgH4 0 [1, 13, 0xF0, 0x70, 0x94, 0, 0, 0x84, 3, 0, 0, 0xC2, 1, 0, 0])) =
        some [.rawIntervals 38000 (.w32 [900, 450])] ∧
      outOf (step (walking cfgHB 0 [1, 9, 0xF0, 0, 0, 0x94, 0x70, 3, 0x84, 1, 0xC2])) =
        some [.rawIntervals 38000 (.w16 [900, 450])] := by decide

/-- V-RAW2, V-RAW3, V-RAW4, V-RAW8. -/
theorem test_raw_wrong_shape :
    outOf (step (walking cfgH 0 [1, 10, 0xF0, 0x70, 0x94, 0, 0, 0x84, 3, 0xC2, 1, 0x84])) = some [.diag .invalidRawLength] ∧
      outOf (step (walking cfgH 0 [1, 4, 0xF0, 0x70, 0x94, 0])) = some [.diag .invalidRawLength] ∧
      outOf (step (walking cfgH 0 [1, 1, 0xF0])) = some [.diag .invalidRawLength] ∧
      outOf (step (walking cfgH4 0 [1, 7, 0xF0, 0x70, 0x94, 0, 0, 0x84, 3])) = some [.diag .invalidRawLength] := by decide

/-- V-PANA5: 0xA5, bit 0 first. -/
theorem test_pana :
    outOf (step (walking cfgH 0 [1, 2, 0xF1, 0xA5])) =
      some [.rawWaveform 36700
        [⟨true, 3456⟩, ⟨false, 1728⟩, ⟨true, 432⟩, ⟨false, 1296⟩, ⟨true, 432⟩, ⟨false, 432⟩, ⟨true, 432⟩, ⟨false, 1296⟩,
          ⟨true, 432⟩, ⟨false, 432⟩, ⟨true, 432⟩, ⟨false, 432⟩, ⟨true, 432⟩, ⟨false, 1296⟩, ⟨true, 432⟩, ⟨false, 432⟩,
          ⟨true, 432⟩, ⟨false, 1296⟩, ⟨true, 432⟩, ⟨false, 0⟩]] := by decide

/-- V-PANA1, and V-PANA7 read at the places where its two 1 bits stand. -/
theorem test_pana_ends :
    outOf (step (walking cfgH 0 [1, 1, 0xF1])) =
        some [.rawWaveform 36700 [⟨true, 3456⟩, ⟨false, 1728⟩, ⟨true, 432⟩, ⟨false, 0⟩]] ∧
      ((panaPulses cfgH [0x02, 0x20]).length = 36 ∧
        (List.range 36).filter (fun k => (panaPulses cfgH [0x02, 0x20])[k]? = some ⟨false, 1296⟩) = [5, 29]) := by decide

/-- V-RD1 to V-RD4. -/
theorem test_rd8 :
    [0, 4, 5, 6].map (fun o => readOf (step (calling cfgH [0x11, 0x22, 0x33, 0x44, 0x55] .one o))) =
      [some (.u8 0x11), some (.u8 0x55), some .outOfBounds, some .outOfBounds] := by decide

/-- V-RD5 to V-RD7, V-RD11. -/
theorem test_rd16 :
    [1, 3, 4, 5].map (fun o => readOf (step (calling cfgH [0x11, 0x22, 0x33, 0x44, 0x55] .two o))) =
        [some (.u16 0x3322), some (.u16 0x5544), some .outOfBounds, some .outOfBounds] ∧
      readOf (step (calling cfgHB [0x11, 0x22, 0x33, 0x44, 0x55] .two 1)) = some (.u16 0x2233) := by decide

/-- V-RD8 to V-RD10. -/
theorem test_rd32 :
    [0, 1, 2].map (fun o => readOf (step (calling cfgH [0x11, 0x22, 0x33, 0x44, 0x55] .four o))) =
        [some (.u32 0x44332211), some (.u32 0x55443322), some .outOfBounds] ∧
      readOf (step (calling cfgHB [0x11, 0x22, 0x33, 0x44, 0x55] .four 1)) = some (.u32 0x22334455) := by decide

/-- R108 on the buffer of V-RD. -/
theorem test_rdiw :
    readOf (exec (.rdiw 1) (walking cfgH 0 [0x11, 0x22, 0x33, 0x44, 0x55])) = some (.u16 0x3322) ∧
      readOf (exec (.rdiw 1) (walking cfgH4 0 [0x11, 0x22, 0x33, 0x44, 0x55])) = some (.u32 0x55443322) ∧
      readOf (exec (.rdiw 2) (walking cfgH4 0 [0x11, 0x22, 0x33, 0x44, 0x55])) = some .outOfBounds := by decide

/-! ### The frame decoder, and whole messages through the big-step reading -/

/-- V-FD6, V-FD4, V-FD3, V-FD1. -/
theorem test_decoder_diagnostics :
    outOf (step (walking cfgH 0 [1, 5, 0xF1, 1])) = some [.diag .frameOverrun] ∧
      outOf (step (walking cfgH 0 [1])) = some [.diag .trailingOrTruncatedData] ∧
      outOf (step (walking cfgH 0 [0, 0xAA])) = some [.diag .trailingOrTruncatedData] ∧
      outOf (step (offering cfgH 0 [])) = some [.diag .trailingOrTruncatedData] := by decide

/-- S6 as printed and S6a. -/
theorem test_scenario :
    bigCycle cfgH [2, 5, 0xF0, 1, 2, 3, 4, 2, 0xEF, 0, 0x0A] =
        [.rawIntervals 67305985 (.w16 []), .diag .unexpectedPayloadSize, .diag .trailingOrTruncatedData] ∧
      bigCycle cfgH [2, 5, 0xF0, 1, 2, 3, 4, 3, 0xEF, 0x0A, 0] = [.rawIntervals 67305985 (.w16 []), .wait 10] := by decide

/-- P1's source assembles to P1's bytes; P3's overrides to P3's. -/
theorem test_assemble :
    Source.assemble cfgH3 ⟨[⟨.std 3 0x20DF10EF, none⟩, ⟨.delay 40, none⟩, ⟨.std 4 0xA90, none⟩], none, []⟩ =
        [3, 5, 3, 0xEF, 0x10, 0xDF, 0x20, 3, 0xEF, 0x28, 0, 5, 4, 0x90, 0x0A, 0, 0] ∧
      Source.assemble cfgH ⟨[⟨.delay 100, none⟩, ⟨.pana [1, 2], some 9⟩], some 3, []⟩ =
        [3, 3, 0xEF, 0x64, 0, 9, 0xF1, 1, 2] := by decide

/-- P3: the wait, then the overrun, and the third frame is never looked for. -/
theorem test_overrun_program :
    bigCycle cfgH [3, 3, 0xEF, 0x64, 0, 9, 0xF1, 1, 2] = [.wait 100, .diag .frameOverrun] := by decide

/-- The host presents a second message while one waits (log 15): the input shows the later one. -/
theorem test_present_while_one_waits :
    (((walking cfgH 0 [1, 0]).present 0x100 [0]).present 0x200 [1, 0]).port = some ⟨0x200, 2⟩ := by decide

/-! ### Witnesses: for each statement with hypotheses, concrete states and operands that meet them all -/

/-- A message of two frames, a delay and an empty one. -/
def twoFrames : List Byte := [2, 3, 0xEF, 0x0A, 0x00, 0x00]

/-- A walk at the first frame of a message, for the statements about a walk. -/
theorem walking_twoFrames_inv : (walking cfgH 0 twoFrames).Inv := by
  constructor <;> decide

theorem walking_twoFrames_readable : (walking cfgH 0 twoFrames).readable := by decide

theorem offering_twoFrames (base : Addr) (h : base.toNat + 6 ≤ 2 ^ 32) :
    (offering cfgH base twoFrames).offered base twoFrames where
  idle := rfl
  noCall := rfl
  presented := rfl
  lengthFits := by decide
  inRange := h
  held := Memory.holds_writeBytes [] base.toNat twoFrames

/-- The two-frame message through four steps of the machine: V-DS7's wait at 10 ms, then V-FD5's empty frame. -/
theorem runs_twoFrames :
    (next? (runSteps 4 (offering cfgH 0 twoFrames))).map (fun t => (t.phase, t.out)) =
      some (.idle, [.wait 10, .diag .emptyFrame]) := by decide

/-- What `runs_twoFrames` says, as a state. -/
theorem runs_twoFrames_state :
    ∃ t, runSteps (3 + 1) (offering cfgH 0 twoFrames) = .next t ∧ t.phase = .idle ∧ t.out = [.wait 10, .diag .emptyFrame] := by
  have h := runs_twoFrames
  cases hr : runSteps 4 (offering cfgH 0 twoFrames) with
  | next t =>
    rw [hr] at h
    have h := Option.some.inj h
    exact ⟨t, rfl, congrArg Prod.fst h, congrArg Prod.snd h⟩
  | fault f => rw [hr] at h; exact absurd h (by simp [next?])
  | refused r => rw [hr] at h; exact absurd h (by simp [next?])

theorem test_witness_StepKeepsTheInvariant :
    ∃ s t, s.Inv ∧ step s = .next t ∧ s.phase = .run := ⟨_, _, walking_twoFrames_inv, rfl, rfl⟩

theorem test_witness_HostResetDuringACycle :
    ∃ s : State, s.Inv ∧ s.phase = .run := ⟨_, walking_twoFrames_inv, rfl⟩

/-- Each clause at its boundary: 238 is the largest tag below the reserved range. -/
theorem test_witness_IllFormedConfigurationIsRefused :
    refusalOf (step { State.reset with cfg := { cfgH with tagDelay := 238 } }) = some .illFormedConfig ∧
      refusalOf (step { State.reset with cfg := { cfgH with tagRaw := 238 } }) = some .illFormedConfig ∧
      refusalOf (step { State.reset with cfg := { cfgH with tagPana := 238 } }) = some .illFormedConfig ∧
      refusalOf (step { State.reset with cfg := { cfgH with tagRaw := 0xEF } }) = some .illFormedConfig ∧
      refusalOf (step { State.reset with cfg := { cfgH with tagPana := 0xEF } }) = some .illFormedConfig ∧
      refusalOf (step { State.reset with cfg := { cfgH with tagPana := 0xF0 } }) = some .illFormedConfig := by decide

theorem test_witness_TagClassesAreDecidedByTheTagAlone : cfgH.wf = true ∧ cfgH.classify 242 = .unrecognized := by decide

/-- The payload at both ends of its range. -/
theorem test_witness_DecodeOfEncodeIsTheInstruction :
    cfgH.wf = true ∧ Instr.wf cfgH (.pana []) = true ∧ Instr.wf cfgH (.pana (List.replicate 254 0)) = true ∧
      Instr.wf cfgH (.rdiw 0xFFFFFFFF) = true := 
  ⟨by decide, by decide, by rw [Instr.wf, payloadFits, List.length_replicate]; decide, rfl⟩

theorem test_witness_EncodeOfDecodeIsTheBytes :
    cfgH.wf = true ∧ decode cfgH (.frame [1, 0xF1, 7]) = .ok (.pana []) [7] := by decide

theorem test_witness_WidthSelectIsLog2OfTheWidth :
    encode cfgH (.rd32 9) = .call 2 9 ∧ encode cfgH (.rdiw 9) = .call 1 9 ∧ encode cfgH4 (.rdiw 9) = .call 2 9 := by decide

theorem test_witness_AssemblyInvertsSplitting : 65535 < 256 ^ 2 ∧ 0 < 256 ^ 0 := by decide

/-- The last byte, and the first offset past it. -/
theorem test_witness_Rd8ReturnsTheByte :
    let s := walking cfgH 0 [0x11, 0x22]
    ((1 : Offset).toNat < s.mlen.toNat ∧ s.msgByte (1 : Offset).toNat = some 0x22) ∧
      s.mlen.toNat ≤ (2 : Offset).toNat := by decide

/-- The last two bytes, and one offset further. -/
theorem test_witness_Rd16AssemblesTwoBytes :
    let s := walking cfgH 0 [0x11, 0x22, 0x33]
    let off : Offset := 1
    (off.toNat + 2 ≤ s.mlen.toNat ∧ s.msgByte off.toNat = some 0x22 ∧ s.msgByte (off.toNat + 1) = some 0x33) ∧
      s.mlen.toNat < (2 : Offset).toNat + 2 ∧ s.cfg.byteOrder = .le ∧ cfgHB.byteOrder = .be := by decide

theorem test_witness_Rd32AssemblesFourBytes :
    let s := walking cfgHB 0 [0x11, 0x22, 0x33, 0x44, 0x55]
    let off : Offset := 1
    (off.toNat + 4 ≤ s.mlen.toNat ∧ s.msgByte off.toNat = some 0x22 ∧ s.msgByte (off.toNat + 1) = some 0x33 ∧
        s.msgByte (off.toNat + 2) = some 0x44 ∧ s.msgByte (off.toNat + 3) = some 0x55) ∧
      s.mlen.toNat < (2 : Offset).toNat + 4 ∧ s.cfg.byteOrder = .be ∧ cfgH.byteOrder = .le := by decide

/-- Both widths, each up to the message's last byte. -/
theorem test_witness_RdiwReadsOneInterval :
    let s := walking cfgH 0 [1, 2, 3, 4]
    let s4 := walking cfgH4 0 [1, 2, 3, 4]
    (s.cfg.iwb = .two ∧ (2 : Offset).toNat + s.cfg.iwb.bytes ≤ s.mlen.toNat ∧ s.readable) ∧
      s4.cfg.iwb = .four ∧ (0 : Offset).toNat + s4.cfg.iwb.bytes ≤ s4.mlen.toNat ∧ s4.readable := by decide

/-- The same message at an even and at an odd address. -/
theorem test_witness_ReaderIsBlindToAlignment :
    let s := walking cfgH 0x1000 [1, 2, 3, 4]
    let s' := walking cfgH 0x1001 [1, 2, 3, 4]
    Instr.isFrame (.rd16 1) = false ∧ s'.cfg = s.cfg ∧ s'.mlen = s.mlen ∧
      (∀ k < s.mlen.toNat, s'.msgByte k = s.msgByte k) ∧ ∃ t, exec (.rd16 1) s = .next t :=
  ⟨by decide, by decide, by decide, by decide, ⟨_, rfl⟩⟩

theorem test_witness_ReaderChangesNothing :
    Instr.isFrame (.rd8 1) = false ∧ ∃ t, exec (.rd8 1) (walking cfgH 0 twoFrames) = .next t := ⟨rfl, _, rfl⟩

/-- Each clause, the sizes beside 4 among them. -/
theorem test_witness_StandardFrameSends32Bits :
    ([1, 2, 3] : List Byte).length ≠ 4 ∧ ([1, 2, 3, 4, 5] : List Byte).length ≠ 4 ∧ cfgH.byteOrder = .le ∧
      cfgHB.byteOrder = .be := by decide

theorem test_witness_DelayFrameWaits :
    ([1] : List Byte).length ≠ 2 ∧ ([1, 2, 3] : List Byte).length ≠ 2 ∧ cfgH.byteOrder = .le ∧ cfgHB.byteOrder = .be := by
  decide

/-- The remainder at both ends of its range, in both widths. -/
theorem test_witness_RawFrameSendsItsIntervals :
    (([] : List Byte).length ≤ 250 ∧ ([] : List Byte).length % cfgH.iwb.bytes = 0) ∧
      ((List.replicate 250 (0 : Byte)).length ≤ 250 ∧ (List.replicate 250 (0 : Byte)).length % cfgH.iwb.bytes = 0) ∧
      (List.replicate 248 (0 : Byte)).length % cfgH4.iwb.bytes = 0 ∧ cfgH.byteOrder = .le ∧ cfgHB.byteOrder = .be := by
  rw [List.length_replicate, List.length_replicate]; decide

theorem test_witness_RawNumbersAreSentAsWritten :
    (∀ v ∈ [0, 65535], v < 2 ^ (walking cfgH 0 twoFrames).cfg.iwb.bits) ∧ ∀ v ∈ [0, 4294967295], v < 2 ^ cfgH4.iwb.bits := by decide

/-- One byte short of the frequency; one byte past a whole number of intervals. -/
theorem test_witness_IllShapedRawFrameIsReported :
    ([1, 2, 3] : List Byte).length < 4 ∧
      (4 ≤ ([1, 2, 3, 4, 5] : List Byte).length ∧ (([1, 2, 3, 4, 5] : List Byte).length - 4) % cfgH.iwb.bytes ≠ 0) ∧
      (([1, 2, 3, 4, 5, 6] : List Byte).length - 4) % cfgH4.iwb.bytes ≠ 0 := by decide

theorem test_witness_PanasonicFrameSendsThePulseList :
    ([] : List Byte).length ≤ 254 ∧ (List.replicate 254 (0 : Byte)).length ≤ 254 := by
  rw [List.length_replicate]; decide

theorem test_witness_PulseCountAndAlternation :
    (panaPulses cfgH [1])[0]? = some ⟨true, 3456⟩ ∧ (panaPulses cfgH [1])[19]? = some ⟨false, 0⟩ := by decide

/-- The first bit and the last bit of a payload of two bytes. -/
theorem test_witness_DataBitsInOrder :
    ([0x02, 0x20] : List Byte)[0 / 8]? = some 0x02 ∧ ([0x02, 0x20] : List Byte)[15 / 8]? = some 0x20 := by decide

theorem test_witness_DispatchAppendsExactlyOneEvent :
    Instr.isFrame (.std 3 []) = true ∧ Instr.wf (walking cfgH 0 twoFrames).cfg (.std 3 []) = true ∧
      Instr.isFrame (.unknown 0 []) = true ∧ Instr.wf (walking cfgH 0 twoFrames).cfg (.unknown 0 []) = true := by decide

theorem test_witness_NoInstructionTransfersControl :
    ∃ t, exec (.raw [0x70, 0x94, 0, 0, 0x84, 3]) (walking cfgH 0 twoFrames) = .next t := ⟨_, rfl⟩

/-- An instruction under each premise of the clauses. -/
theorem test_witness_HandlerRegistersHaveOneWriter :
    (∃ t, exec .empty (walking cfgH 0 twoFrames) = .next t) ∧
      (∃ t, exec (.rd8 0) (walking cfgH 0 twoFrames) = .next t) ∧
      (∃ t, exec (.std 3 [1, 2, 3, 4]) (walking cfgH 0 twoFrames) = .next t) ∧
      (∃ t, exec (.delay [1, 2]) (walking cfgH 0 twoFrames) = .next t) ∧
      ∃ t, exec (.pana [1]) (walking cfgH 0 twoFrames) = .next t :=
  ⟨⟨_, rfl⟩, ⟨_, rfl⟩, ⟨_, rfl⟩, ⟨_, rfl⟩, _, rfl⟩

/-- A kind under each clause. -/
theorem test_witness_DiagnosticsTakeTheirControlAction :
    ((walking cfgH 0 twoFrames).raiseDiag .frameOverrun).phase = .idle ∧
      ((walking cfgH 0 twoFrames).raiseDiag (.unknownEncoding 255)).phase = .run := by decide

/-- The second frame of a message, which ends exactly at the message end. -/
theorem test_witness_StepRunsTheDecodedFrame :
    let s : State := { walking cfgH 0 twoFrames with cur := 5, idx := 1 }
    s.cfg.wf = true ∧ s.rdCall = none ∧ s.phase = .run ∧ s.idx ≠ s.nfr ∧
      s.cur.toNat + (([] : List Byte).length + 1) ≤ s.mlen.toNat ∧
      (∀ k < ([] : List Byte).length + 1, s.msgByte (s.cur.toNat + k) = [(0 : Byte)][k]?) ∧
      decode s.cfg (.frame [0]) = .ok .empty [] := by decide

theorem test_witness_StepRunsTheReaderCall :
    let s := calling cfgH twoFrames .four 1
    s.cfg.wf = true ∧ s.rdCall = some ⟨.four, 1⟩ := by decide

/-- A message whose last byte is the last of the address space. -/
theorem test_witness_AcceptanceReadsTheCount :
    (offering cfgH 0xFFFFFFFA twoFrames).cfg.wf = true ∧
      (offering cfgH 0xFFFFFFFA twoFrames).offered 0xFFFFFFFA twoFrames := ⟨by decide, offering_twoFrames _ (by decide)⟩

theorem test_witness_EmptyMessageIsReported :
    (offering cfgH 0x1000 []).cfg.wf = true ∧ (offering cfgH 0x1000 []).offered 0x1000 [] :=
  ⟨by decide, by constructor <;> decide⟩

theorem test_witness_MessagePastTheAddressSpaceIsRefused :
    let s : State := { holding cfgH 0 [] with port := some ⟨0xFFFFFFFF, 2⟩ }
    s.cfg.wf = true ∧ s.rdCall = none ∧ s.phase = .idle ∧ s.port = some ⟨0xFFFFFFFF, 2⟩ ∧
      2 ^ 32 < (0xFFFFFFFF : Addr).toNat + (2 : Offset).toNat := by decide

theorem test_witness_MissingLengthByteStopsTheCycle :
    let s := walking cfgH 0 [1]
    s.cfg.wf = true ∧ s.rdCall = none ∧ s.phase = .run ∧ s.idx ≠ s.nfr ∧ s.cur = s.mlen := by decide

/-- A length byte of one more than what remains. -/
theorem test_witness_OverrunStopsTheCycle :
    let s := walking cfgH 0 [1, 3, 0xF1, 1]
    s.cfg.wf = true ∧ s.rdCall = none ∧ s.phase = .run ∧ s.idx ≠ s.nfr ∧ s.cur.toNat < s.mlen.toNat ∧
      s.msgByte s.cur.toNat = some 3 ∧ s.mlen.toNat - (s.cur.toNat + 1) < (3 : Byte).toNat := by decide

/-- An exact end, and one byte left over. -/
theorem test_witness_TailCheckEndsTheCycle :
    let s := walking cfgH 0 [0]
    let s1 := walking cfgH 0 [0, 0xAA]
    (s.cfg.wf = true ∧ s.rdCall = none ∧ s.phase = .run ∧ s.idx = s.nfr ∧ s.cur = s.mlen) ∧
      s1.cfg.wf = true ∧ s1.rdCall = none ∧ s1.phase = .run ∧ s1.idx = s1.nfr ∧ s1.cur ≠ s1.mlen := by decide

/-- A busy block with a second message presented. -/
theorem test_witness_BusyBlockAcceptsNothing :
    let s : State := { walking cfgH 0 twoFrames with port := some ⟨0x2000, 4⟩ }
    s.busy = true ∧ ∃ t, step s = .next t := ⟨by decide, ⟨_, rfl⟩⟩

theorem test_witness_NoStepWritesTheMessage :
    (∃ t, step (walking cfgH 0 twoFrames) = .next t) ∧ ∃ t, step (offering cfgH 0 twoFrames) = .next t :=
  ⟨⟨_, rfl⟩, _, rfl⟩

theorem test_witness_CycleGoesForward :
    ∃ s t, s.Inv ∧ s.phase = .run ∧ step s = .next t := ⟨_, _, walking_twoFrames_inv, rfl, rfl⟩

/-- A state with a reader call pending and a second message presented. -/
def crowded : State :=
  { walking cfgH 0 twoFrames with port := some ⟨0, 6⟩, rdCall := some ⟨.four, 1⟩ }

theorem test_witness_NoStepCrashes :
    crowded.Inv ∧ crowded.cfg.wf = true ∧ crowded.readable ∧
      (∀ t, crowded.port = some t → t.base.toNat + t.len.toNat ≤ 2 ^ 32 ∧
        ∀ k < t.len.toNat, (crowded.mem.read (t.base.toNat + k)).isSome = true) := by
  refine ⟨by constructor <;> decide, by decide, by decide, ?_⟩
  intro t h
  obtain rfl := Option.some.inj h
  decide

/-- A step under each clause: custom tags that alias; one byte past the address space; a length byte the host does not hold;
a reader call past the buffer; a count byte the host does not hold. -/
theorem test_witness_OnlyConfigurationAndHostAreRefused :
    refusalOf (step { walking cfgH 0 twoFrames with cfg := { cfgH with tagRaw := 0xEF } }) = some .illFormedConfig ∧
      refusalOf (step { holding cfgH 0 [] with port := some ⟨0xFFFFFFFF, 2⟩ }) = some .addressRange ∧
      refusalOf (step { walking cfgH 0 [1] with mlen := 2 }) = some .bufferUnreadable ∧
      refusalOf (step { calling cfgH [1] .two 0 with mlen := 2 }) = some .bufferUnreadable ∧
      refusalOf (step { holding cfgH 0 [] with port := some ⟨0xFFFFFFFF, 1⟩ }) = some .bufferUnreadable := by decide

theorem test_witness_EveryCycleEnds :
    ∃ s : State, s.Inv ∧ s.cfg.wf = true ∧ s.rdCall = none ∧ s.phase = .run ∧ s.readable :=
  ⟨_, walking_twoFrames_inv, by decide, rfl, rfl, walking_twoFrames_readable⟩

theorem test_witness_CycleEmitsTheBigStepTrace :
    (offering cfgH 0 twoFrames).cfg.wf = true ∧ (offering cfgH 0 twoFrames).offered 0 twoFrames ∧
      (offering cfgH 0 twoFrames).scrValid = false := ⟨by decide, offering_twoFrames 0 (by decide), rfl⟩

theorem test_witness_FramingLaw :
    ∃ s t : State, s.cfg.wf = true ∧ s.offered 0 twoFrames ∧ runSteps (3 + 1) s = .next t ∧ t.phase = .idle ∧
      Event.diag .frameOverrun ∉ t.out ∧ Event.diag .trailingOrTruncatedData ∉ t.out := by
  obtain ⟨t, h, hp, ho⟩ := runs_twoFrames_state
  exact ⟨_, t, by decide, offering_twoFrames 0 (by decide), h, hp, by rw [ho]; decide, by rw [ho]; decide⟩

/-- The same message at address 0 and at address 1. -/
theorem test_witness_TraceIsIndependentOfThePlace :
    ∃ s s' t t' : State, s.cfg.wf = true ∧ s'.cfg = s.cfg ∧ s.offered 0 twoFrames ∧ s'.offered 1 twoFrames ∧
      runSteps (3 + 1) s = .next t ∧ t.phase = .idle ∧ runSteps (3 + 1) s' = .next t' ∧ t'.phase = .idle := by
  obtain ⟨t, h, hp, _⟩ := runs_twoFrames_state
  exact ⟨_, offering cfgH 1 twoFrames, t, _, by decide, by decide, offering_twoFrames 0 (by decide),
    offering_twoFrames 1 (by decide), h, hp, rfl, rfl⟩

/-- P1's lines. -/
theorem test_witness_AssembledMessageEmitsItsLines :
    cfgH3.wf = true ∧ ([.std 3 0x20DF10EF, .delay 40, .std 4 0xA90] : List Line).length ≤ 255 ∧
      ∀ l ∈ ([.std 3 0x20DF10EF, .delay 40, .std 4 0xA90] : List Line), l.wf cfgH3 = true := by decide

end Sys2Proof.Tests
end

section
/-! The frame of a step: the configuration and the buffer memory stand (R21, R50, R69). Each case lemma of Laws/ gives the next
state as a chain of register moves, and no register move writes either field. -/

namespace Sys2Proof.Machine

/-- The acceptances that go on: the empty message (R125), a count byte out of bounds, or the start of the walk (R121). -/
theorem accept_next_cases {s t : State} {tr : Transaction} (h : s.accept tr = .next t) :
    tr.base.toNat + tr.len.toNat ≤ 2 ^ 32 ∧
      ((tr.len = 0 ∧ t = (s.latch tr).raiseDiag .trailingOrTruncatedData) ∨
        (tr.len ≠ 0 ∧ (s.latch tr).msgRd 8 0 = .error .outOfBounds ∧
          t = (s.latch tr).raiseDiag .readOutOfBounds) ∨
        (∃ n : Byte, tr.len ≠ 0 ∧ (s.latch tr).msgRd 8 0 = .ok n ∧ t = (s.latch tr).startWalk n)) := by
  simp only [State.accept] at h
  split_ifs at h with hr h0
  · exact ⟨by omega, .inl ⟨h0, (Host.Outcome.next.inj h).symm⟩⟩
  · refine ⟨by omega, .inr ?_⟩
    cases hb : (s.latch tr).msgRd 8 0 with
    | error e =>
      rw [hb] at h
      cases e with
      | outOfBounds => exact .inl ⟨h0, rfl, readFailed_next h⟩
      | noValue => simp [State.readFailed] at h
    | ok n =>
      rw [hb] at h
      exact .inr ⟨n, h0, rfl, (Host.Outcome.next.inj h).symm⟩

/-- The tail check, which always goes on (R127, R133). -/
theorem tailCheck_next_cases {s t : State} (h : s.tailCheck = .next t) :
    (s.cur ≠ s.mlen ∧ t = s.raiseDiag .trailingOrTruncatedData) ∨ (s.cur = s.mlen ∧ t = s.endCycle) := by
  unfold State.tailCheck at h
  split_ifs at h with hc
  · exact .inl ⟨hc, (Host.Outcome.next.inj h).symm⟩
  · exact .inr ⟨not_not.1 hc, (Host.Outcome.next.inj h).symm⟩

/-- `t` has the configuration and the buffer memory of `s`: what the block may only read (R21, R50). -/
def State.sameInputs (s t : State) : Prop := t.cfg = s.cfg ∧ t.mem = s.mem

/-- R21, R69: no instruction writes the configuration or the buffer memory. -/
theorem exec_sameInputs {i : Instr} {s t : State} (h : exec i s = .next t) : s.sameInputs t := by
  rcases exec_next_cases h with ⟨_, _, rfl⟩ | ⟨_, _, _, _, rfl⟩ | ⟨_, _, _, _, rfl⟩ | ⟨_, _, _, _, rfl⟩ |
    ⟨_, _, _, _, rfl⟩ | ⟨_, _, _, _, rfl⟩ | ⟨_, _, _, _, _, rfl⟩ | ⟨_, _, _, _, _, rfl⟩ | ⟨_, _, rfl⟩ <;>
    exact ⟨rfl, rfl⟩

theorem takeFrame_sameInputs {s t : State} (h : s.takeFrame = .next t) : s.sameInputs t := by
  rcases takeFrame_next_cases h with ⟨_, rfl⟩ | ⟨_, _, rfl⟩ | ⟨_, _, _, hx⟩
  · exact ⟨rfl, rfl⟩
  · exact ⟨rfl, rfl⟩
  · simpa [State.sameInputs] using exec_sameInputs hx

theorem frameStep_sameInputs {s t : State} (h : s.frameStep = .next t) : s.sameInputs t := by
  rcases frameStep_next_cases h with ⟨_, rfl⟩ | ⟨_, _, rfl⟩ | ⟨_, _, _, hf⟩
  · exact ⟨rfl, rfl⟩
  · exact ⟨rfl, rfl⟩
  · simpa [State.sameInputs] using takeFrame_sameInputs hf

theorem accept_sameInputs {s t : State} {tr : Transaction} (h : s.accept tr = .next t) : s.sameInputs t := by
  obtain ⟨_, ⟨_, rfl⟩ | ⟨_, _, rfl⟩ | ⟨_, _, _, rfl⟩⟩ := accept_next_cases h <;> exact ⟨rfl, rfl⟩

theorem tailCheck_sameInputs {s t : State} (h : s.tailCheck = .next t) : s.sameInputs t := by
  obtain ⟨_, rfl⟩ | ⟨_, rfl⟩ := tailCheck_next_cases h <;> exact ⟨rfl, rfl⟩

/-- R21, R69: a step of any state leaves the configuration and the buffer memory, as the machine holds them, alone. -/
theorem step_sameInputs {s t : State} (h : step s = .next t) : s.sameInputs t := by
  obtain ⟨_, ⟨_, _, hcall⟩ | ⟨_, _, _, rfl⟩ | ⟨_, _, _, _, haccept⟩ | ⟨_, _, _, htail⟩ | ⟨_, _, _, hframe⟩⟩ :=
    step_next_cases h
  · obtain ⟨v, rfl⟩ := readerStep_next hcall
    exact ⟨rfl, rfl⟩
  · exact ⟨rfl, rfl⟩
  · exact accept_sameInputs haccept
  · exact tailCheck_sameInputs htail
  · exact frameStep_sameInputs hframe

/-- Settles O44: the whole memory stands, so every byte of it does. -/
theorem noStepWritesTheMessage : Obligations.NoStepWritesTheMessage := by
  intro s t h
  obtain ⟨hcfg, hmem⟩ := step_sameInputs h
  exact ⟨hcfg, fun a => by rw [hmem]⟩

end Sys2Proof.Machine
end

section
/-! The values the reader returns (40_unaligned_reader.md): the bytes within the message, assembled exactly (R102), or
`ReadOutOfBounds` (R101). Each operation of fixed width is `RD` at that width over the message, handed to the caller. -/

namespace Sys2Proof.Machine

/-! ### `RD` over the message -/

/-- `n` bytes assemble to a number of `n` bytes, in either byte order. -/
theorem asm_lt (o : ByteOrder) (bs : List Byte) : asm o bs < 256 ^ bs.length := by
  cases o with
  | le => exact asmLE_lt bs
  | be => simpa [asm] using asmLE_lt bs.reverse

/-- R102: where the message holds bytes, `RD` of that many bytes returns their assembly, with nothing cut off. -/
theorem msgRd_ok (s : State) (w : Nat) (off : Offset) (bs : List Byte) (hw : w = 8 * bs.length)
    (hb : off.toNat + bs.length ≤ s.mlen.toNat) (h : ∀ k < bs.length, s.msgByte (off.toNat + k) = bs[k]?) :
    ∃ v, s.msgRd w off = .ok v ∧ v.toNat = asm s.cfg.byteOrder bs := by
  have hlt : asm s.cfg.byteOrder bs < 2 ^ w := by
    simpa [hw, Nat.pow_mul] using asm_lt s.cfg.byteOrder bs
  exact ⟨_, rd_ok _ _ _ _ _ bs (by omega) hb h, by rw [BitVec.toNat_ofNat, Nat.mod_eq_of_lt hlt]⟩

/-- R101: past the message end, `RD` returns the error. -/
theorem msgRd_outOfBounds (s : State) (w : Nat) (off : Offset) (h : s.mlen.toNat < off.toNat + w / 8) :
    s.msgRd w off = .error .outOfBounds :=
  rd_outOfBounds _ w _ _ _ h

/-- `RD` within a readable message returns a value. -/
theorem msgRd_of_readable (s : State) (w : Nat) (off : Offset) (hb : off.toNat + w / 8 ≤ s.mlen.toNat)
    (hr : s.readable) : ∃ v, s.msgRd w off = .ok v := by
  cases h : s.msgRd w off with
  | ok v => exact ⟨v, rfl⟩
  | error e =>
    obtain ⟨_, hsize⟩ | ⟨_, _, k, hk, hnone⟩ := rd_error _ _ _ _ _ _ h
    · omega
    · simpa [hnone] using hr (off.toNat + k) (by omega)

/-! ### The reader operations -/

theorem exec_rd8 (s : State) (off : Offset) :
    exec (.rd8 off) s = s.returnRead ((s.msgRd 8 off).map .u8) := by
  simp only [exec, execRd8, State.rd8]
  cases s.msgRd 8 off <;> rfl

theorem exec_rd16 (s : State) (off : Offset) :
    exec (.rd16 off) s = s.returnRead ((s.msgRd 16 off).map .u16) := by
  simp only [exec, execRd16, State.rd16]
  cases s.msgRd 16 off <;> rfl

theorem exec_rd32 (s : State) (off : Offset) :
    exec (.rd32 off) s = s.returnRead ((s.msgRd 32 off).map .u32) := by
  simp only [exec, execRd32, State.rd32]
  cases s.msgRd 32 off <;> rfl

theorem exec_rdiw_two (s : State) (off : Offset) (h : s.cfg.iwb = .two) :
    exec (.rdiw off) s = exec (.rd16 off) s := by
  simp only [exec, execRdiw, State.rdiw, h, execRd16]

theorem exec_rdiw_four (s : State) (off : Offset) (h : s.cfg.iwb = .four) :
    exec (.rdiw off) s = exec (.rd32 off) s := by
  simp only [exec, execRdiw, State.rdiw, h, execRd32]

/-! ### The statements -/

/-- Settles O13: the one byte is its own assembly in either byte order. -/
theorem rd8ReturnsTheByte : Obligations.Rd8ReturnsTheByte := by
  intro s off
  refine ⟨rfl, fun b hlt hb => ?_, fun hend => ?_⟩
  · rw [exec_rd8, msgRd8_ok s off b hlt hb]; rfl
  · rw [exec_rd8, msgRd_outOfBounds s 8 off (by omega)]; rfl

/-- Settles O14: `RD` of the two held bytes, with the assembly written out for each byte order. -/
theorem rd16AssemblesTwoBytes : Obligations.Rd16AssemblesTwoBytes := by
  intro s off
  refine ⟨rfl, fun b0 b1 hlen h0 h1 => ?_, fun hend => ?_⟩
  · have hheld : ∀ k < [b0, b1].length, s.msgByte (off.toNat + k) = [b0, b1][k]?
      | 0, _ => h0
      | 1, _ => h1
    obtain ⟨v, hv, hval⟩ := msgRd_ok s 16 off [b0, b1] rfl hlen hheld
    refine ⟨v, by rw [exec_rd16, hv]; rfl, fun ho => ?_, fun ho => ?_⟩
    · rw [hval, ho]; simp [asm, asmLE]
    · rw [hval, ho]; simp [asm, asmLE]; omega
  · rw [exec_rd16, msgRd_outOfBounds s 16 off (by omega)]; rfl

/-- Settles O15: `RD` of the four held bytes, with the assembly written out for each byte order. -/
theorem rd32AssemblesFourBytes : Obligations.Rd32AssemblesFourBytes := by
  intro s off
  refine ⟨rfl, fun b0 b1 b2 b3 hlen h0 h1 h2 h3 => ?_, fun hend => ?_⟩
  · have hheld : ∀ k < [b0, b1, b2, b3].length, s.msgByte (off.toNat + k) = [b0, b1, b2, b3][k]?
      | 0, _ => h0
      | 1, _ => h1
      | 2, _ => h2
      | 3, _ => h3
    obtain ⟨v, hv, hval⟩ := msgRd_ok s 32 off [b0, b1, b2, b3] rfl hlen hheld
    refine ⟨v, by rw [exec_rd32, hv]; rfl, fun ho => ?_, fun ho => ?_⟩
    · rw [hval, ho]; simp [asm, asmLE]; omega
    · rw [hval, ho]; simp [asm, asmLE]; omega
  · rw [exec_rd32, msgRd_outOfBounds s 32 off (by omega)]; rfl

/-- Settles O16, by the interval width: the select of the operation, and a value wherever `RD` at that width completes. -/
theorem rdiwReadsOneInterval : Obligations.RdiwReadsOneInterval := by
  intro s off
  refine ⟨exec_rdiw_two s off, exec_rdiw_four s off, fun hlen hr => ?_⟩
  cases hw : s.cfg.iwb with
  | two =>
    rw [hw] at hlen
    obtain ⟨v, hv⟩ := msgRd_of_readable s 16 off hlen hr
    exact ⟨.u16 v, by rw [exec_rdiw_two s off hw, exec_rd16, hv]; rfl, by simp, by simp⟩
  | four =>
    rw [hw] at hlen
    obtain ⟨v, hv⟩ := msgRd_of_readable s 32 off hlen hr
    exact ⟨.u32 v, by rw [exec_rdiw_four s off hw, exec_rd32, hv]; rfl, by simp, by simp⟩

end Sys2Proof.Machine
end

section
/-! The tail check (R127, R133): one equation per branch, and the step that makes it. -/

namespace Sys2Proof.Machine

/-- R133: an exact end is not reported. -/
theorem tailCheck_exactEnd {s : State} (h : s.cur = s.mlen) : s.tailCheck = .next s.endCycle :=
  if_neg (not_not_intro h)

/-- R127: left-over bytes are reported, and none of them is read. -/
theorem tailCheck_leftOver {s : State} (h : s.cur ≠ s.mlen) :
    s.tailCheck = .next (s.raiseDiag .trailingOrTruncatedData) :=
  if_pos h

/-- Settles O42: with all frames yielded the step is the tail check, and its two branches are the two clauses. -/
theorem tailCheckEndsTheCycle : Obligations.TailCheckEndsTheCycle := by
  intro s hwf hcall hrun hall
  have htail : step s = s.tailCheck := by rw [step_run s hwf hcall hrun, if_pos hall]
  exact ⟨fun hend => htail.trans (tailCheck_exactEnd hend), fun hleft => htail.trans (tailCheck_leftOver hleft)⟩

end Sys2Proof.Machine
end

section
/-! The dispatcher (42_dispatcher.md): the classes of a tag (R144), and the frames the dispatcher settles itself (R143, R145 to
R147, R151). -/

namespace Sys2Proof.Machine

/-! ### The classes of a tag -/

/-- R8, taken apart: three reserved tags, pairwise distinct. -/
theorem cfg_wf_iff (c : Cfg) : c.wf = true ↔
    (239 ≤ c.tagDelay.toNat ∧ 239 ≤ c.tagRaw.toNat ∧ 239 ≤ c.tagPana.toNat) ∧
      c.tagDelay ≠ c.tagRaw ∧ c.tagDelay ≠ c.tagPana ∧ c.tagRaw ≠ c.tagPana := by
  simp [Cfg.wf, Cfg.reserved, and_assoc]

/-- R9: no reserved tag is standard. -/
theorem inStdSet_eq_false_of_reserved (c : Cfg) {t : Byte} (h : 239 ≤ t.toNat) : c.inStdSet t = false := by
  simp [Cfg.inStdSet, Nat.not_lt.2 h]

/-- R141: the dispatcher's tests in their order, and the class each gives. -/
theorem classify_cases (c : Cfg) (t : Byte) :
    (c.inStdSet t = true ∧ c.classify t = .standard) ∨
    (c.inStdSet t = false ∧ t = c.tagDelay ∧ c.classify t = .delay) ∨
    (c.inStdSet t = false ∧ t ≠ c.tagDelay ∧ t = c.tagRaw ∧ c.classify t = .raw) ∨
    (c.inStdSet t = false ∧ t ≠ c.tagDelay ∧ t ≠ c.tagRaw ∧ t = c.tagPana ∧ c.classify t = .panasonicRaw) ∨
    (c.inStdSet t = false ∧ t ≠ c.tagDelay ∧ t ≠ c.tagRaw ∧ t ≠ c.tagPana ∧ c.classify t = .unrecognized) := by
  unfold Cfg.classify
  split_ifs with hs hd hr hp
  · exact .inl ⟨hs, rfl⟩
  · exact .inr (.inl ⟨eq_false_of_ne_true hs, hd, rfl⟩)
  · exact .inr (.inr (.inl ⟨eq_false_of_ne_true hs, hd, hr, rfl⟩))
  · exact .inr (.inr (.inr (.inl ⟨eq_false_of_ne_true hs, hd, hr, hp, rfl⟩)))
  · exact .inr (.inr (.inr (.inr ⟨eq_false_of_ne_true hs, hd, hr, hp, rfl⟩)))

/-- Settles O6: the custom tags are reserved, so none of them is standard, and they are distinct; hence at most one test can
succeed, whatever their order. -/
theorem tagClassesAreDecidedByTheTagAlone : Obligations.TagClassesAreDecidedByTheTagAlone := by
  intro c t hwf
  obtain ⟨⟨hdelay, hraw, hpana⟩, hdr, hdp, hrp⟩ := (cfg_wf_iff c).1 hwf
  have hd := inStdSet_eq_false_of_reserved c hdelay
  have hr := inStdSet_eq_false_of_reserved c hraw
  have hp := inStdSet_eq_false_of_reserved c hpana
  obtain ⟨hs, hc⟩ | ⟨hs, rfl, hc⟩ | ⟨hs, hnd, rfl, hc⟩ | ⟨hs, hnd, hnr, rfl, hc⟩ | ⟨hs, hnd, hnr, hnp, hc⟩ :=
    classify_cases c t
  · have hne : ∀ u, c.inStdSet u = false → t ≠ u := by
      rintro u hu rfl
      simp [hs] at hu
    simp [hc, hs, hne _ hd, hne _ hr, hne _ hp]
  · simp [hc, hs, hdr, hdp]
  · simp [hc, hs, hnd, hrp]
  · simp [hc, hs, hnd, hnr]
  · simp [hc, hs, hnd, hnr, hnp]

/-! ### The diagnostics that skip a frame -/

/-- R210, R221: a diagnostic that does not stop the cycle is an event and nothing more. -/
theorem raiseDiag_of_skips {k : DiagKind} (h : k.stopsCycle = false) (s : State) :
    s.raiseDiag k = s.emit (.diag k) := by
  simp [State.raiseDiag, State.emit, h]

theorem exec_empty (s : State) : exec .empty s = .next (s.emit (.diag .emptyFrame)) :=
  congrArg Host.Outcome.next (raiseDiag_of_skips rfl s)

theorem exec_unknown (tag : Byte) (p : List Byte) (s : State) :
    exec (.unknown tag p) s = .next ((s.loadTag tag p.length).emit (.diag (.unknownEncoding tag))) :=
  congrArg Host.Outcome.next (raiseDiag_of_skips rfl _)

/-- Settles O19: `EMPTY` is one diagnostic; the walk of `01 00` is that one frame, with nothing left over. -/
theorem emptyFrameIsReported : Obligations.EmptyFrameIsReported :=
  ⟨exec_empty, fun _ => rfl⟩

/-- Settles O22: the move of the dispatcher and one diagnostic. -/
theorem unknownTagIsReported : Obligations.UnknownTagIsReported :=
  fun s tag payload => exec_unknown tag payload s

/-! ### `STD` -/

/-- A word of `n` bytes holds the assembly of `n` bytes, with nothing cut off. -/
theorem toNat_ofNat_asm (o : ByteOrder) {w : Nat} {bs : List Byte} (hw : w = 8 * bs.length) :
    (BitVec.ofNat w (asm o bs)).toNat = asm o bs := by
  have hlt : asm o bs < 2 ^ w := by simpa [hw, Nat.pow_mul] using asm_lt o bs
  rw [BitVec.toNat_ofNat, Nat.mod_eq_of_lt hlt]

/-- R102: four bytes under `LE`. -/
theorem asm_le_four (b0 b1 b2 b3 : Byte) :
    asm .le [b0, b1, b2, b3] = b0.toNat + 2 ^ 8 * b1.toNat + 2 ^ 16 * b2.toNat + 2 ^ 24 * b3.toNat := by
  simp only [asm, asmLE]; omega

/-- R102: four bytes under `BE`. -/
theorem asm_be_four (b0 b1 b2 b3 : Byte) :
    asm .be [b0, b1, b2, b3] = 2 ^ 24 * b0.toNat + 2 ^ 16 * b1.toNat + 2 ^ 8 * b2.toNat + b3.toNat := by
  simp only [asm, asmLE, List.reverse_cons, List.reverse_nil, List.nil_append, List.cons_append]; omega

/-- R145, R146: a payload of 4 bytes is sent. -/
theorem exec_std_sends (tag : Byte) {p : List Byte} (s : State) (h : p.length = 4) :
    exec (.std tag p) s =
      .next (((s.loadTag tag p.length).setCode (BitVec.ofNat 32 (asm s.cfg.byteOrder p))).emit
        (.genericCode tag (BitVec.ofNat 32 (asm s.cfg.byteOrder p)) 32)) := by
  obtain ⟨hne, _⟩ | ⟨_, hsend⟩ := execStd_cases tag p s
  · exact absurd h hne
  · exact hsend

/-- R147: a payload of any other length is reported. -/
theorem exec_std_reports (tag : Byte) {p : List Byte} (s : State) (h : p.length ≠ 4) :
    exec (.std tag p) s = .next ((s.loadTag tag p.length).emit (.diag .unexpectedPayloadSize)) := by
  obtain ⟨_, hdiag⟩ | ⟨h4, _⟩ := execStd_cases tag p s
  · exact hdiag.trans (congrArg Host.Outcome.next (raiseDiag_of_skips rfl _))
  · exact absurd h4 h

/-- Settles O20: `CODE` is the assembly of the 4 bytes, which fits in 32 bits, so its value is theirs in either byte order. -/
theorem standardFrameSends32Bits : Obligations.StandardFrameSends32Bits := by
  intro s tag
  refine ⟨fun b0 b1 b2 b3 => ?_, fun payload hlen => exec_std_reports tag s hlen⟩
  have hval := toNat_ofNat_asm s.cfg.byteOrder (w := 32) (bs := [b0, b1, b2, b3]) rfl
  exact ⟨BitVec.ofNat 32 (asm s.cfg.byteOrder [b0, b1, b2, b3]), fun ho => by rw [hval, ho, asm_le_four],
    fun ho => by rw [hval, ho, asm_be_four], exec_std_sends tag s rfl⟩

end Sys2Proof.Machine
end

section
/-! The raw waveform builder (43_raw_waveform.md): numbers written one after another at a fixed width are read back as
written (R173, R174), and the Raw frame that carries them sends them (R180). -/

namespace Sys2Proof.Machine

/-! ### Numbers written at a fixed width -/

/-- A word of `n` bytes holds the number written in them, cut to that width. -/
theorem ofNat_asm_split (o : ByteOrder) {w n : Nat} (hw : w = 8 * n) (v : Nat) :
    BitVec.ofNat w (asm o (split o n v)) = BitVec.ofNat w v := by
  apply BitVec.eq_of_toNat_eq
  rw [BitVec.toNat_ofNat, BitVec.toNat_ofNat, asm_split, hw, Nat.pow_mul, Nat.mod_mod]

theorem flatMap_split_length (o : ByteOrder) (n : Nat) (vs : List Nat) :
    (vs.flatMap (split o n)).length = n * vs.length := by
  simp [List.length_flatMap, Nat.mul_comm]

/-- Element `i` of numbers written in `n` bytes each stands in the `n` bytes from `n * i` on. -/
theorem flatMap_split_chunk (o : ByteOrder) (n : Nat) (vs : List Nat) (i : Nat) (hi : i < vs.length) :
    ((vs.flatMap (split o n)).drop (n * i)).take n = split o n vs[i] := by
  induction vs generalizing i with
  | nil => exact absurd hi (Nat.not_lt_zero i)
  | cons v vs ih =>
    rw [List.flatMap_cons]
    cases i with
    | zero => exact List.take_left' (split_length o n v)
    | succ i =>
      have hskip : n * (i + 1) = (split o n v).length + n * i := by rw [split_length, Nat.mul_succ, Nat.add_comm]
      rw [hskip, List.drop_length_add_append, List.getElem_cons_succ]
      exact ih i (Nat.lt_of_succ_lt_succ hi)

/-- R174: the chunks of numbers written in `n` bytes each, read as words of that width, are the numbers. -/
theorem map_ofNat_asm_chunks (o : ByteOrder) {w n : Nat} (hw : w = 8 * n) (vs : List Nat) :
    ((List.range vs.length).map fun i =>
        BitVec.ofNat w (asm o (((vs.flatMap (split o n)).drop (n * i)).take n))) = vs.map (BitVec.ofNat w) := by
  refine List.ext_getElem (by simp) fun i _ hi => ?_
  rw [List.length_map] at hi
  rw [List.getElem_map, List.getElem_map, List.getElem_range, flatMap_split_chunk o n vs i hi, ofNat_asm_split o hw]

/-! ### The remainder of a Raw frame -/

theorem remainderIntervals_two {c : Cfg} (h : c.iwb = .two) (vs : List Nat) :
    remainderIntervals c (vs.flatMap (split c.byteOrder 2)) = .w16 (vs.map (BitVec.ofNat 16)) := by
  simp only [remainderIntervals, h, IntervalWidth.bytes, flatMap_split_length]
  rw [Nat.mul_div_cancel_left _ (by decide), map_ofNat_asm_chunks c.byteOrder (w := 16) (n := 2) rfl]

theorem remainderIntervals_four {c : Cfg} (h : c.iwb = .four) (vs : List Nat) :
    remainderIntervals c (vs.flatMap (split c.byteOrder 4)) = .w32 (vs.map (BitVec.ofNat 32)) := by
  simp only [remainderIntervals, h, IntervalWidth.bytes, flatMap_split_length]
  rw [Nat.mul_div_cancel_left _ (by decide), map_ofNat_asm_chunks c.byteOrder (w := 32) (n := 4) rfl]

/-! ### The statement -/

/-- R171, R173: a payload of a frequency and whole intervals completes; what it leaves in `FREQ` and adds to `OUT`. -/
theorem exec_raw_sends {f r : List Byte} (s : State) (hf : f.length = 4) (hr : r.length % s.cfg.iwb.bytes = 0) :
    ∃ t, exec (.raw (f ++ r)) s = .next t ∧ t.freq = BitVec.ofNat 32 (asm s.cfg.byteOrder f) ∧
      t.out = s.out ++ [.rawIntervals (BitVec.ofNat 32 (asm s.cfg.byteOrder f)) (remainderIntervals s.cfg r)] := by
  have hlen : (f ++ r).length - 4 = r.length := by rw [List.length_append, hf, Nat.add_sub_cancel_left]
  obtain ⟨hshort, _⟩ | ⟨_, hodd, _⟩ | ⟨_, _, hsend⟩ := execRaw_cases (f ++ r) s
  · rw [List.length_append] at hshort; omega
  · exact absurd (hlen ▸ hr) hodd
  · rw [List.take_left' hf, List.drop_left' hf] at hsend
    exact ⟨_, hsend, rfl, rfl⟩

/-- Settles O24: the frequency's bytes assemble to the frequency, and the remainder is whole intervals, which are read back as
written at either width. That the numbers fit is what makes the words of the statement equal to them; the equation of words
needs no bound. -/
theorem rawNumbersAreSentAsWritten : Obligations.RawNumbersAreSentAsWritten := by
  intro s freq ivs _
  have hfreq : BitVec.ofNat 32 (asm s.cfg.byteOrder (split s.cfg.byteOrder 4 freq.toNat)) = freq := by
    rw [ofNat_asm_split _ (w := 32) (n := 4) rfl, BitVec.ofNat_toNat, BitVec.setWidth_eq]
  have hwhole : (ivs.flatMap (split s.cfg.byteOrder s.cfg.iwb.bytes)).length % s.cfg.iwb.bytes = 0 := by
    rw [flatMap_split_length, Nat.mul_mod_right]
  obtain ⟨t, hexec, ht, hout⟩ := exec_raw_sends s (split_length s.cfg.byteOrder 4 freq.toNat) hwhole
  rw [hfreq] at ht hout
  refine ⟨t, hexec, ht, ?_⟩
  rw [hout]
  cases hw : s.cfg.iwb with
  | two => rw [IntervalWidth.bytes, remainderIntervals_two hw]
  | four => rw [IntervalWidth.bytes, remainderIntervals_four hw]

end Sys2Proof.Machine
end

section
/-! The Panasonic encoder (44_panasonic_encoder.md): the pulse list position by position, that is the header, the 16 pulses of
each byte, and the trailer (R191 to R193, R195). -/

namespace Sys2Proof.Machine

/-- R192: byte `i` of a payload is sent as the 16 pulses from position `16 * i` of the data on. -/
theorem flatMap_bytePulses_get (c : Cfg) (bs : List Byte) (i j : Nat) (b : Byte) (hb : bs[i]? = some b) (hj : j < 16) :
    (bs.flatMap (bytePulses c))[16 * i + j]? = (bytePulses c b)[j]? := by
  induction bs generalizing i with
  | nil => simp at hb
  | cons b' bs ih =>
    rw [List.flatMap_cons]
    cases i with
    | zero =>
      obtain rfl : b' = b := by simpa using hb
      rw [Nat.mul_zero, Nat.zero_add, List.getElem?_append_left (by rwa [bytePulses_length])]
    | succ i =>
      have hskip : 16 * (i + 1) + j = (bytePulses c b').length + (16 * i + j) := by rw [bytePulses_length]; omega
      rw [hskip, List.getElem?_append_right (Nat.le_add_right _ _), Nat.add_sub_cancel_left]
      exact ih i (by simpa using hb)

/-- R193: the data follow the two pulses of the header. -/
theorem panaPulses_get_data (c : Cfg) (bs : List Byte) (k : Nat) (hk : k < 16 * bs.length) :
    (panaPulses c bs)[k + 2]? = (bs.flatMap (bytePulses c))[k]? := by
  rw [← flatMap_bytePulses_length c] at hk
  exact List.getElem?_append_left (Nat.add_lt_add_right hk 2)

/-- R195: the two pulses of the trailer follow the data. -/
theorem panaPulses_get_trailer (c : Cfg) (bs : List Byte) (j : Nat) :
    (panaPulses c bs)[16 * bs.length + 2 + j]? = ([⟨true, bitMark c⟩, ⟨false, 0⟩] : List Pulse)[j]? := by
  have hlen : (([⟨true, hdrMark c⟩, ⟨false, hdrSpace c⟩] : List Pulse) ++ bs.flatMap (bytePulses c)).length =
      16 * bs.length + 2 := by
    rw [List.length_append, flatMap_bytePulses_length, Nat.add_comm]; rfl
  rw [panaPulses, ← hlen, List.getElem?_append_right (Nat.le_add_right _ _), Nat.add_sub_cancel_left]

/-- R192: data bit `k` is bit `k % 8` of byte `k / 8`. -/
theorem panaPulses_get_bit (c : Cfg) (bs : List Byte) (k : Nat) (b : Byte) (hb : bs[k / 8]? = some b) :
    (panaPulses c bs)[2 * k + 2]? = some ⟨true, bitMark c⟩ ∧
      (panaPulses c bs)[2 * k + 3]? = some ⟨false, bitSpace c (b.getLsbD (k % 8))⟩ := by
  have hi : k / 8 < bs.length := (List.getElem?_eq_some_iff.1 hb).1
  obtain ⟨hmark, hspace⟩ := bytePulses_get c b (k % 8) (by omega)
  have hk : 2 * k = 16 * (k / 8) + 2 * (k % 8) := by omega
  constructor
  · rw [panaPulses_get_data c bs (2 * k) (by omega), hk, flatMap_bytePulses_get c bs _ _ b hb (by omega), hmark]
  · rw [panaPulses_get_data c bs (2 * k + 1) (by omega), hk, Nat.add_assoc,
      flatMap_bytePulses_get c bs _ _ b hb (by omega), hspace]

/-- R191, R192: no duration and no bit's place depends on the configuration, so the pulse list does not. -/
theorem panaPulses_cfg_irrel (c c' : Cfg) (bs : List Byte) : panaPulses c' bs = panaPulses c bs := by
  have hbit : bitPulses c' = bitPulses c := by funext bit; simp only [bitPulses, bitMark_eq, bitSpace_eq]
  have hbyte : bytePulses c' = bytePulses c := by funext b; simp only [bytePulses, hbit]
  simp only [panaPulses, hbyte, hdrMark_eq, hdrSpace_eq, bitMark_eq]

/-- Settles O29: the header by evaluation, each data bit by its place in its byte, the trailer by the length of what stands
before it. -/
theorem dataBitsInOrder : Obligations.DataBitsInOrder := by
  intro c bs
  refine ⟨?_, ?_, fun k b hb => ?_, ?_, ?_, fun c' => panaPulses_cfg_irrel c c' bs⟩
  · simp [panaPulses]
  · simp [panaPulses]
  · simpa using panaPulses_get_bit c bs k b hb
  · simpa using panaPulses_get_trailer c bs 0
  · simpa using panaPulses_get_trailer c bs 1

end Sys2Proof.Machine
end
section
/-! The Panasonic state machine (R196) against the pulse list of R193's loop: each stretch of moves puts its pulses before what
the machine sends from the state it leaves, so the stretches compose from the terminal phase backwards. -/

namespace Sys2Proof.Machine

/-! ### Single moves -/

/-- A move that sends a pulse puts it before the pulses sent from the next state. -/
theorem panaRun_pulse {c : Cfg} {p : List Byte} {r r1 r2 : PanaRegs} {q : Pulse} {qs : List Pulse} {fuel : Nat}
    (hstep : panaStep c p r = .pulse q r1) (hrun : panaRun c p fuel r1 = .ok (qs, r2)) :
    panaRun c p (fuel + 1) r = .ok (q :: qs, r2) := by
  simp only [panaRun, hstep, hrun]

/-- The data space reads its byte in place (R193), in either byte order. -/
theorem viewRd_byte (c : Cfg) {p : List Byte} {i : Nat} {b : Byte} (hb : p[i]? = some b) :
    viewRd c 8 p i = .ok b := by
  obtain ⟨hi, rfl⟩ := List.getElem?_eq_some_iff.1 hb
  have hone : (p.drop i).take (8 / 8) = [p[i]] := by rw [List.drop_eq_getElem_cons hi]; rfl
  rw [viewRd_ok c 8 p i hi, hone]
  cases c.byteOrder <;> simp [asm, asmLE]

/-- R196, the two rows of one data bit. -/
theorem panaRun_bit {c : Cfg} {p : List Byte} {i : Nat} {b : Byte} {pbyte : Byte} {pbit : BitVec 3} {r2 : PanaRegs}
    {qs : List Pulse} {fuel : Nat} (hb : p[i]? = some b) (hi : pbyte.toNat = i)
    (hrun : panaRun c p fuel (PanaRegs.afterBit p.length ⟨.bitSpace, pbyte, pbit⟩) = .ok (qs, r2)) :
    panaRun c p (fuel + 2) ⟨.bitMark, pbyte, pbit⟩ = .ok (bitPulses c (b.getLsbD pbit.toNat) ++ qs, r2) := by
  have hspace : panaStep c p ⟨.bitSpace, pbyte, pbit⟩ =
      .pulse ⟨false, bitSpace c (b.getLsbD pbit.toNat)⟩ (PanaRegs.afterBit p.length ⟨.bitSpace, pbyte, pbit⟩) := by
    simp only [panaStep, hi, viewRd_byte c hb]
  exact panaRun_pulse rfl (panaRun_pulse hspace hrun)

/-! ### One byte -/

/-- The bits from `j` on of one byte, `m + 1` of them; after bit 7 the machine goes on as `afterBit` says. -/
theorem panaRun_bits {c : Cfg} {p : List Byte} {i : Nat} {b : Byte} {pbyte : Byte} {r2 : PanaRegs} {qs : List Pulse}
    {fuel : Nat} (hb : p[i]? = some b) (hi : pbyte.toNat = i)
    (hrun : panaRun c p fuel (PanaRegs.afterBit p.length ⟨.bitSpace, pbyte, 7⟩) = .ok (qs, r2)) (m : Nat) :
    ∀ j, j + m = 7 → panaRun c p (fuel + 2 * (m + 1)) ⟨.bitMark, pbyte, BitVec.ofNat 3 j⟩ =
      .ok ((List.range' j (m + 1)).flatMap (fun k => bitPulses c (b.getLsbD k)) ++ qs, r2) := by
  induction m with
  | zero =>
    intro j hj
    obtain rfl : j = 7 := hj
    simpa using panaRun_bit hb hi hrun
  | succ m ih =>
    intro j hj
    have hjbit : (BitVec.ofNat 3 j).toNat = j := by rw [BitVec.toNat_ofNat]; omega
    have hafter : PanaRegs.afterBit p.length ⟨.bitSpace, pbyte, BitVec.ofNat 3 j⟩ =
        ⟨.bitMark, pbyte, BitVec.ofNat 3 (j + 1)⟩ := by
      simp only [PanaRegs.afterBit, hjbit, if_pos (show j < 7 by omega), BitVec.ofNat_add]
      rfl
    have hnext := panaRun_bit (c := c) (pbit := BitVec.ofNat 3 j) hb hi (hafter ▸ ih (j + 1) (by omega))
    rw [hjbit] at hnext
    rw [List.range'_succ, List.flatMap_cons, List.append_assoc]
    exact hnext

/-- R192, R196: the 16 moves of one byte send its pulses. -/
theorem panaRun_byte {c : Cfg} {p : List Byte} {i : Nat} {b : Byte} {pbyte : Byte} {r2 : PanaRegs} {qs : List Pulse}
    {fuel : Nat} (hb : p[i]? = some b) (hi : pbyte.toNat = i)
    (hrun : panaRun c p fuel (PanaRegs.afterBit p.length ⟨.bitSpace, pbyte, 7⟩) = .ok (qs, r2)) :
    panaRun c p (fuel + 16) ⟨.bitMark, pbyte, 0⟩ = .ok (bytePulses c b ++ qs, r2) := by
  rw [bytePulses, List.range_eq_range']
  exact panaRun_bits hb hi hrun 7 0 rfl

/-! ### The payload and the trailer -/

/-- R195, R196: from the trailing mark on, the two closing pulses and the terminal phase. -/
theorem panaRun_trailer (c : Cfg) (p : List Byte) (pbyte : Byte) (pbit : BitVec 3) :
    panaRun c p 3 ⟨.trailMark, pbyte, pbit⟩ =
      .ok ([⟨true, bitMark c⟩, ⟨false, 0⟩], ⟨.done, pbyte, pbit⟩) := rfl

/-- From the first bit of the byte after `sent`: the bytes still due and the trailer; `PBYTE` ends at the last byte. -/
theorem panaRun_bytes (c : Cfg) (p : List Byte) (hp : p.length ≤ 254) (due : List Byte) :
    ∀ (sent : List Byte) (b : Byte), p = sent ++ b :: due →
      panaRun c p (3 + 16 * (due.length + 1)) ⟨.bitMark, BitVec.ofNat 8 sent.length, 0⟩ =
        .ok ((b :: due).flatMap (bytePulses c) ++ [⟨true, bitMark c⟩, ⟨false, 0⟩],
          ⟨.done, BitVec.ofNat 8 (p.length - 1), 7⟩) := by
  induction due with
  | nil =>
    rintro sent b rfl
    have hlen : (sent ++ [b]).length - 1 = sent.length := by simp
    have hsent : (BitVec.ofNat 8 sent.length).toNat = sent.length := by
      rw [BitVec.toNat_ofNat]; simp at hp; omega
    have hafter : PanaRegs.afterBit (sent ++ [b]).length ⟨.bitSpace, BitVec.ofNat 8 sent.length, 7⟩ =
        ⟨.trailMark, BitVec.ofNat 8 sent.length, 7⟩ := by
      simp [PanaRegs.afterBit, hsent]
    have hbyte := panaRun_byte (c := c) (b := b) (p := sent ++ [b]) (by simp) hsent
      (hafter ▸ panaRun_trailer c (sent ++ [b]) (BitVec.ofNat 8 sent.length) 7)
    simpa [hlen] using hbyte
  | cons b' due ih =>
    rintro sent b hsplit
    have hlen : p.length = sent.length + (due.length + 2) := by simp [hsplit]
    have hsent : (BitVec.ofNat 8 sent.length).toNat = sent.length := by
      rw [BitVec.toNat_ofNat]; omega
    have hafter : PanaRegs.afterBit p.length ⟨.bitSpace, BitVec.ofNat 8 sent.length, 7⟩ =
        ⟨.bitMark, BitVec.ofNat 8 (sent ++ [b]).length, 0⟩ := by
      have hmore : sent.length < p.length - 1 := by omega
      simp [PanaRegs.afterBit, hsent, hmore, BitVec.ofNat_add]
    have hbyte := panaRun_byte (c := c) (b := b) (p := p) (by simp [hsplit]) hsent
      (hafter ▸ ih (sent ++ [b]) b' (by simp [hsplit]))
    rw [List.flatMap_cons, List.append_assoc]
    exact hbyte

/-- R193, R196: the machine from its entry row to `P_DONE` sends the pulse list of the loop. -/
theorem panaRun_entry (c : Cfg) (p : List Byte) (hp : p.length ≤ 254) :
    panaRun c p (panaFuel p.length) PanaRegs.entry =
      .ok (panaPulses c p, ⟨.done, BitVec.ofNat 8 (p.length - 1), if p = [] then 0 else 7⟩) := by
  cases p with
  | nil => rfl
  | cons b due =>
    have hdata := panaRun_bytes c (b :: due) hp due [] b rfl
    have hfuel : panaFuel (b :: due).length = 3 + 16 * (due.length + 1) + 2 := by
      rw [panaFuel, List.length_cons]; omega
    rw [hfuel, panaPulses, List.append_assoc]
    exact panaRun_pulse rfl (panaRun_pulse rfl hdata)

/-- R193, R199: what `PANA` does with a payload that fits a frame. -/
theorem exec_pana (p : List Byte) (s : State) (hp : p.length ≤ 254) :
    exec (.pana p) s = .next (((s.loadTag s.cfg.tagPana p.length).loadPana
      ⟨.done, BitVec.ofNat 8 (p.length - 1), if p = [] then 0 else 7⟩).emit
        (.rawWaveform s.cfg.panaFreq (panaPulses s.cfg p))) := by
  simp only [exec, execPana, panaRun_entry s.cfg p hp]

/-- Settles O27: the state machine's run is the loop's pulse list, and the rest of the handler is register moves. -/
theorem panasonicFrameSendsThePulseList : Obligations.PanasonicFrameSendsThePulseList :=
  fun s payload hp => exec_pana payload s hp

/-! ### Counts and sums of the pulse list -/

/-- Settles O28: a position of the list is in the header, the mark or the space of a data bit, or in the trailer. -/
theorem pulseCountAndAlternation : Obligations.PulseCountAndAlternation := by
  intro c bs
  have hlength : (panaPulses c bs).length = 16 * bs.length + 4 := by
    rw [panaPulses, List.length_append, List.length_append, flatMap_bytePulses_length, Nat.add_comm (List.length _)]
    rfl
  refine ⟨hlength, fun k p hk => ?_, by simpa using panaPulses_get_trailer c bs 1⟩
  have hlt : k < 16 * bs.length + 4 := hlength ▸ (List.getElem?_eq_some_iff.1 hk).1
  by_cases hheader : k < 2
  · interval_cases k
    · obtain rfl : _ = p := Option.some.inj hk
      simp
    · obtain rfl : _ = p := Option.some.inj hk
      simp
  by_cases hdata : k < 16 * bs.length + 2
  · have hi : (k - 2) / 2 / 8 < bs.length := by omega
    obtain ⟨hmark, hspace⟩ := panaPulses_get_bit c bs ((k - 2) / 2) _ (List.getElem?_eq_getElem hi)
    obtain heven | hodd := Nat.mod_two_eq_zero_or_one k
    · rw [show 2 * ((k - 2) / 2) + 2 = k by omega, hk] at hmark
      simp [Option.some.inj hmark, heven]
    · rw [show 2 * ((k - 2) / 2) + 3 = k by omega, hk] at hspace
      simp [Option.some.inj hspace, hodd]
  · obtain ⟨j, rfl⟩ : ∃ j, k = 16 * bs.length + 2 + j := ⟨k - (16 * bs.length + 2), by omega⟩
    rw [panaPulses_get_trailer] at hk
    obtain rfl | rfl : j = 0 ∨ j = 1 := by omega
    · obtain rfl : _ = p := Option.some.inj hk
      simp; omega
    · obtain rfl : _ = p := Option.some.inj hk
      simp; omega

/-- The sum of the durations of a list of pulses, in microseconds (R202). -/
def totalDuration (ps : List Pulse) : Nat := (ps.map fun p => p.dur.toNat).sum

theorem totalDuration_append (ps qs : List Pulse) :
    totalDuration (ps ++ qs) = totalDuration ps + totalDuration qs := by
  simp [totalDuration]

/-- The number of 1 bits of a byte (R202). -/
def oneBits (b : Byte) : Nat := ((List.range 8).filter fun j => b.getLsbD j).length

theorem oneBits_le (b : Byte) : oneBits b ≤ 8 := by
  simpa [oneBits] using List.length_filter_le (fun j => b.getLsbD j) (List.range 8)

/-- R191: a data bit lasts 864 µs, and 864 µs more when it is 1. -/
theorem totalDuration_bits (c : Cfg) (b : Byte) (js : List Nat) :
    totalDuration (js.flatMap fun j => bitPulses c (b.getLsbD j)) =
      864 * js.length + 864 * (js.filter fun j => b.getLsbD j).length := by
  induction js with
  | nil => rfl
  | cons j js ih =>
    rw [List.flatMap_cons, totalDuration_append, ih]
    cases hbit : b.getLsbD j
    · simp [bitPulses, totalDuration, hbit]; omega
    · simp [bitPulses, totalDuration, hbit]; omega

theorem totalDuration_bytes (c : Cfg) (bs : List Byte) :
    totalDuration (bs.flatMap (bytePulses c)) = 864 * (8 * bs.length) + 864 * (bs.map oneBits).sum := by
  induction bs with
  | nil => rfl
  | cons b bs ih =>
    have hbyte : totalDuration (bytePulses c b) = 864 * 8 + 864 * oneBits b := totalDuration_bits c b (List.range 8)
    rw [List.flatMap_cons, totalDuration_append, ih, hbyte, List.map_cons, List.sum_cons, List.length_cons]
    omega

theorem sum_oneBits_le (bs : List Byte) : (bs.map oneBits).sum ≤ 8 * bs.length := by
  induction bs with
  | nil => rfl
  | cons b bs ih =>
    have := oneBits_le b
    rw [List.map_cons, List.sum_cons, List.length_cons]
    omega

/-- Settles O30: the header and the trailer last 5184 + 432 µs, and the data what their bits last. -/
theorem pulseDurationsSum : Obligations.PulseDurationsSum := by
  intro c bs
  have hones := sum_oneBits_le bs
  have htotal : totalDuration (panaPulses c bs) =
      5184 + (864 * (8 * bs.length) + 864 * (bs.map oneBits).sum) + 432 := by
    rw [panaPulses, totalDuration_append, totalDuration_append, totalDuration_bytes]
    simp [totalDuration]
  change totalDuration (panaPulses c bs) =
    5184 + 864 * (8 * bs.length - (bs.map oneBits).sum) + 1728 * (bs.map oneBits).sum + 432
  omega

end Sys2Proof.Machine
end
section
/-! The encoding (30_encoding.md): a frame is its length byte and its body, and the body determines the instruction, so decoder
and encoder need comparing on bodies only. -/

namespace Sys2Proof.Machine

/-! ### Bodies -/

theorem payloadFits_iff (p : List Byte) : payloadFits p = true ↔ p.length ≤ 254 := decide_eq_true_iff

/-- R72, R73: a frame is cut by its length byte, whatever follows it. -/
theorem decodeFrame_body (c : Cfg) (body rest : List Byte) (h : body.length ≤ 255) :
    decodeFrame c (BitVec.ofNat 8 body.length :: body ++ rest) = .ok (decodeBody c body) rest := by
  have hlen : (BitVec.ofNat 8 body.length).toNat = body.length := by rw [BitVec.toNat_ofNat]; omega
  simp [decodeFrame, hlen]

/-- R144: the classes of the custom tags, for a configuration that meets R8. -/
theorem classify_custom (c : Cfg) (hwf : c.wf = true) :
    c.classify c.tagDelay = .delay ∧ c.classify c.tagRaw = .raw ∧ c.classify c.tagPana = .panasonicRaw := by
  obtain ⟨_, hdelay, _, _, _⟩ := tagClassesAreDecidedByTheTagAlone c c.tagDelay hwf
  obtain ⟨_, _, hraw, _, _⟩ := tagClassesAreDecidedByTheTagAlone c c.tagRaw hwf
  obtain ⟨_, _, _, hpana, _⟩ := tagClassesAreDecidedByTheTagAlone c c.tagPana hwf
  exact ⟨hdelay.2 rfl, hraw.2 rfl, hpana.2 rfl⟩

theorem classify_standard {c : Cfg} {t : Byte} (h : c.inStdSet t = true) : c.classify t = .standard := if_pos h

/-- R81: a tag that is neither standard nor custom. -/
theorem classify_unrecognized {c : Cfg} {t : Byte} (hs : c.inStdSet t = false) (hc : c.isCustom t = false) :
    c.classify t = .unrecognized := by
  simp_all [Cfg.classify, Cfg.isCustom]

/-- R72, R80: what the encoder writes for a well-formed frame is a length byte and a body, and the body decodes to the frame. -/
theorem encode_frame (c : Cfg) (i : Instr) (hc : c.wf = true) (hi : i.wf c = true) (hf : i.isFrame = true) :
    ∃ body, body.length ≤ 255 ∧ encode c i = .frame (BitVec.ofNat 8 body.length :: body) ∧ decodeBody c body = i := by
  obtain ⟨hdelay, hraw, hpana⟩ := classify_custom c hc
  cases i with
  | empty => exact ⟨[], Nat.zero_le _, rfl, rfl⟩
  | std tag p =>
    obtain ⟨hset, hfits⟩ := Bool.and_eq_true_iff.1 hi
    exact ⟨tag :: p, Nat.succ_le_succ ((payloadFits_iff p).1 hfits), rfl, by simp [decodeBody, classify_standard hset]⟩
  | delay p => exact ⟨c.tagDelay :: p, Nat.succ_le_succ ((payloadFits_iff p).1 hi), rfl, by simp [decodeBody, hdelay]⟩
  | raw p => exact ⟨c.tagRaw :: p, Nat.succ_le_succ ((payloadFits_iff p).1 hi), rfl, by simp [decodeBody, hraw]⟩
  | pana p => exact ⟨c.tagPana :: p, Nat.succ_le_succ ((payloadFits_iff p).1 hi), rfl, by simp [decodeBody, hpana]⟩
  | unknown tag p =>
    obtain ⟨hclass, hfits⟩ := Bool.and_eq_true_iff.1 hi
    obtain ⟨hset, hcustom⟩ := Bool.and_eq_true_iff.1 hclass
    rw [Bool.not_eq_true'] at hset hcustom
    exact ⟨tag :: p, Nat.succ_le_succ ((payloadFits_iff p).1 hfits), rfl,
      by simp [decodeBody, classify_unrecognized hset hcustom]⟩
  | rd8 | rd16 | rd32 | rdiw => cases hf

/-- R72, R80, R82: every body a length byte can announce is a well-formed frame, under any configuration, and the encoder
writes that frame as this body. -/
theorem decodeBody_encode (c : Cfg) (body : List Byte) (h : body.length ≤ 255) :
    (decodeBody c body).wf c = true ∧ (decodeBody c body).isFrame = true ∧
      encode c (decodeBody c body) = .frame (BitVec.ofNat 8 body.length :: body) := by
  cases body with
  | nil => exact ⟨rfl, rfl, rfl⟩
  | cons tag p =>
    have hfits : payloadFits p = true := (payloadFits_iff p).2 (Nat.le_of_succ_le_succ h)
    obtain ⟨hs, hc⟩ | ⟨_, rfl, hc⟩ | ⟨_, _, rfl, hc⟩ | ⟨_, _, _, rfl, hc⟩ | ⟨hs, hnd, hnr, hnp, hc⟩ :=
      classify_cases c tag
    · simp [decodeBody, hc, Instr.wf, hs, hfits, Instr.isFrame, encode, frameBytes]
    · simp [decodeBody, hc, Instr.wf, hfits, Instr.isFrame, encode, frameBytes]
    · simp [decodeBody, hc, Instr.wf, hfits, Instr.isFrame, encode, frameBytes]
    · simp [decodeBody, hc, Instr.wf, hfits, Instr.isFrame, encode, frameBytes]
    · simp [decodeBody, hc, Instr.wf, Cfg.isCustom, hs, hnd, hnr, hnp, hfits, Instr.isFrame, encode, frameBytes]

/-! ### The statements -/

/-- Settles O7: a frame by its body; a reader operation by its select, `RDIW`'s by the interval width. -/
theorem decodeOfEncodeIsTheInstruction : Obligations.DecodeOfEncodeIsTheInstruction := by
  intro c i hc hi
  cases hf : i.isFrame with
  | true =>
    obtain ⟨body, hlen, henc, hdec⟩ := encode_frame c i hc hi hf
    rw [henc]
    intro rest
    rw [← hdec]
    exact decodeFrame_body c body rest hlen
  | false =>
    cases i with
    | rd8 | rd16 | rd32 => rfl
    | rdiw off => cases hw : c.iwb <;> simp [encode, Cfg.intervalSelect, hw, decode, decodeCall]
    | empty | std | delay | raw | pana | unknown => cases hf

/-- Settles O8: bytes that decode are a length byte, the body it announces, and the rest. -/
theorem encodeOfDecodeIsTheBytes : Obligations.EncodeOfDecodeIsTheBytes := by
  intro c bytes rest i _ hdec
  cases bytes with
  | nil => cases hdec
  | cons len tail =>
    simp only [decode, decodeFrame] at hdec
    split_ifs at hdec with hcut
    obtain ⟨rfl, rfl⟩ := Decoded.ok.inj hdec
    have hlen : (tail.take len.toNat).length = len.toNat := by rw [List.length_take]; omega
    have hbyte := len.isLt
    obtain ⟨hwf, hframe, henc⟩ := decodeBody_encode c (tail.take len.toNat) (by omega)
    refine ⟨hwf, hframe, _, henc, ?_⟩
    rw [hlen, BitVec.ofNat_toNat, BitVec.setWidth_eq, List.cons_append, List.take_append_drop]

/-- Settles O9: the two ways a frame is cut short are the decoder's only two errors. -/
theorem decodeRejectsOnlyCutFrames : Obligations.DecodeRejectsOnlyCutFrames := by
  intro c bytes
  cases bytes with
  | nil => exact ⟨fun _ => .inl rfl, fun _ => ⟨_, rfl⟩⟩
  | cons len rest =>
    by_cases hcut : rest.length < len.toNat
    · exact ⟨fun _ => .inr ⟨len, rest, rfl, hcut⟩, fun _ => ⟨_, if_pos hcut⟩⟩
    · have hok : decode c (.frame (len :: rest)) = .ok (decodeBody c (rest.take len.toNat)) (rest.drop len.toNat) :=
        if_neg hcut
      simp [hok, hcut]

/-- Settles O10, by evaluating the decoder on the six frames. -/
theorem specFramesDecode : Obligations.SpecFramesDecode := by
  unfold Obligations.SpecFramesDecode
  decide

/-- Settles O11: each of the four selects by evaluation, and each instruction's select by its case. -/
theorem widthSelectIsLog2OfTheWidth : Obligations.WidthSelectIsLog2OfTheWidth := by
  refine ⟨fun c off => ⟨rfl, rfl, rfl, rfl⟩, fun c i wsel off henc => ?_, fun w => ?_, rfl⟩
  · cases i with
    | empty | std | delay | raw | pana | unknown => cases henc
    | rd8 | rd16 | rd32 => cases henc; decide
    | rdiw o =>
      obtain ⟨rfl, _⟩ := Encoded.call.inj henc
      unfold Cfg.intervalSelect
      cases c.iwb <;> decide
  · cases w <;> decide

/-- Settles O12: assembly gives the number modulo 256 to the `n`, and the number is below that. -/
theorem assemblyInvertsSplitting : Obligations.AssemblyInvertsSplitting :=
  fun o n v hv => ⟨(asm_split o n v).trans (Nat.mod_eq_of_lt hv), split_length o n v⟩

end Sys2Proof.Machine
end
section
/-! The reader unit as a function of the message (R58, R103): a reader operation returns one result, computed from the
configuration, `MLEN` and the message bytes, and its only effect is to hand that result over. -/

namespace Sys2Proof.Machine

/-- R58: `RD` over the message depends on the byte order, `MLEN` and the message bytes alone. -/
theorem msgRd_congr {s s' : State} (hcfg : s'.cfg = s.cfg) (hlen : s'.mlen = s.mlen)
    (hbytes : ∀ k < s.mlen.toNat, s'.msgByte k = s.msgByte k) (w : Nat) (off : Offset) :
    s'.msgRd w off = s.msgRd w off := by
  rw [State.msgRd, State.msgRd, hcfg, hlen, rd_congr _ _ _ _ _ _ hbytes]

/-- The result a reader operation hands over is the same in two states that hold the same message. -/
theorem exec_reader_congr {s s' : State} {i : Instr} (hi : i.isFrame = false) (hcfg : s'.cfg = s.cfg)
    (hlen : s'.mlen = s.mlen) (hbytes : ∀ k < s.mlen.toNat, s'.msgByte k = s.msgByte k) :
    ∃ r, exec i s = s.returnRead r ∧ exec i s' = s'.returnRead r := by
  have hrd := msgRd_congr hcfg hlen hbytes
  cases i with
  | rd8 off => exact ⟨_, exec_rd8 s off, by rw [exec_rd8, hrd]⟩
  | rd16 off => exact ⟨_, exec_rd16 s off, by rw [exec_rd16, hrd]⟩
  | rd32 off => exact ⟨_, exec_rd32 s off, by rw [exec_rd32, hrd]⟩
  | rdiw off =>
    cases hw : s.cfg.iwb with
    | two =>
      exact ⟨_, (exec_rdiw_two s off hw).trans (exec_rd16 s off),
        by rw [exec_rdiw_two s' off (hcfg ▸ hw), exec_rd16, hrd]⟩
    | four =>
      exact ⟨_, (exec_rdiw_four s off hw).trans (exec_rd32 s off),
        by rw [exec_rdiw_four s' off (hcfg ▸ hw), exec_rd32, hrd]⟩
  | empty | std | delay | raw | pana | unknown => cases hi

/-- A result that is handed over in one state is handed over in every state. -/
theorem returnRead_transfer {r : Except ReadError ReadOut} {s t : State} (h : s.returnRead r = .next t) (s' : State) :
    s'.returnRead r = .next (s'.setRead t.rdOut) := by
  unfold State.returnRead at h ⊢
  split at h
  · obtain rfl := Host.Outcome.next.inj h; rfl
  · obtain rfl := Host.Outcome.next.inj h; rfl
  · cases h

/-- Settles O17: both states hand over the same result. -/
theorem readerIsBlindToAlignment : Obligations.ReaderIsBlindToAlignment := by
  intro s s' i t hi hcfg hlen hbytes h
  obtain ⟨r, hr, hr'⟩ := exec_reader_congr hi hcfg hlen hbytes
  rw [hr']
  exact returnRead_transfer (hr ▸ h) s'

/-- Settles O18: only the returned value differs, so the message is the same, and the call made again reads the same. -/
theorem readerChangesNothing : Obligations.ReaderChangesNothing := by
  intro s t i hi h
  obtain ⟨r, hr, _⟩ := exec_reader_congr (s := s) (s' := s) hi rfl rfl fun _ _ => rfl
  obtain ⟨v, rfl⟩ := returnRead_next (hr ▸ h)
  exact ⟨rfl, rfl, fun _ => rfl, readerIsBlindToAlignment s (s.setRead v) i _ hi rfl rfl (fun _ _ => rfl) h⟩

end Sys2Proof.Machine
end
section
/-! The handlers of the frames (42_dispatcher.md, 43_raw_waveform.md): one equation per branch of `DELAY` and `RAW`, what every
dispatch leaves alone (R160), and the one event of every dispatch (R161). -/

namespace Sys2Proof.Machine

/-! ### `DELAY` -/

/-- R102: two bytes under `LE`. -/
theorem asm_le_two (b0 b1 : Byte) : asm .le [b0, b1] = b0.toNat + 256 * b1.toNat := by
  simp [asm, asmLE]

/-- R102: two bytes under `BE`. -/
theorem asm_be_two (b0 b1 : Byte) : asm .be [b0, b1] = 256 * b0.toNat + b1.toNat := by
  simp [asm, asmLE, Nat.add_comm]

/-- R148: a payload of 2 bytes is waited for. -/
theorem exec_delay_waits {p : List Byte} (s : State) (h : p.length = 2) :
    exec (.delay p) s =
      .next (((s.loadTag s.cfg.tagDelay p.length).setMs (BitVec.ofNat 16 (asm s.cfg.byteOrder p))).emit
        (.wait (BitVec.ofNat 16 (asm s.cfg.byteOrder p)))) := by
  obtain ⟨hne, _⟩ | ⟨_, hwait⟩ := execDelay_cases p s
  · exact absurd h hne
  · exact hwait

/-- R149: a payload of any other length is reported. -/
theorem exec_delay_reports {p : List Byte} (s : State) (h : p.length ≠ 2) :
    exec (.delay p) s = .next ((s.loadTag s.cfg.tagDelay p.length).emit (.diag .unexpectedPayloadSize)) := by
  obtain ⟨_, hdiag⟩ | ⟨h2, _⟩ := execDelay_cases p s
  · exact hdiag.trans (congrArg Host.Outcome.next (raiseDiag_of_skips rfl _))
  · exact absurd h2 h

/-- Settles O21: `MS` is the assembly of the 2 bytes, which fits in 16 bits. -/
theorem delayFrameWaits : Obligations.DelayFrameWaits := by
  intro s
  refine ⟨fun b0 b1 => ?_, fun payload hlen => exec_delay_reports s hlen⟩
  have hval := toNat_ofNat_asm s.cfg.byteOrder (w := 16) (bs := [b0, b1]) rfl
  exact ⟨BitVec.ofNat 16 (asm s.cfg.byteOrder [b0, b1]), fun ho => by rw [hval, ho, asm_le_two],
    fun ho => by rw [hval, ho, asm_be_two], exec_delay_waits s rfl⟩

/-! ### `RAW` -/

/-- R172: no room for the frequency. -/
theorem exec_raw_short {p : List Byte} (s : State) (h : p.length < 4) :
    exec (.raw p) s = .next ((s.loadTag s.cfg.tagRaw p.length).emit (.diag .invalidRawLength)) := by
  obtain ⟨_, hdiag⟩ | ⟨h4, _⟩ | ⟨h4, _⟩ := execRaw_cases p s
  · exact hdiag.trans (congrArg Host.Outcome.next (raiseDiag_of_skips rfl _))
  · omega
  · omega

/-- R172: a remainder that is no whole number of intervals. -/
theorem exec_raw_uneven {p : List Byte} (s : State) (h4 : 4 ≤ p.length) (h : (p.length - 4) % s.cfg.iwb.bytes ≠ 0) :
    exec (.raw p) s =
      .next (((s.loadTag s.cfg.tagRaw p.length).setRlen (p.length - 4)).emit (.diag .invalidRawLength)) := by
  obtain ⟨hlt, _⟩ | ⟨_, _, hdiag⟩ | ⟨_, heven, _⟩ := execRaw_cases p s
  · omega
  · exact hdiag.trans (congrArg Host.Outcome.next (raiseDiag_of_skips rfl _))
  · exact absurd heven h

/-- R171: the required shape. -/
theorem exec_raw_shaped {p : List Byte} (s : State) (h4 : 4 ≤ p.length) (h : (p.length - 4) % s.cfg.iwb.bytes = 0) :
    exec (.raw p) s =
      .next (((((s.loadTag s.cfg.tagRaw p.length).setRlen (p.length - 4)).loadRaw
        (BitVec.ofNat 32 (asm s.cfg.byteOrder (p.take 4))) (p.length - 4)).emit
          (.rawIntervals (BitVec.ofNat 32 (asm s.cfg.byteOrder (p.take 4)))
            (remainderIntervals s.cfg (p.drop 4)))).releaseScratch) := by
  obtain ⟨hlt, _⟩ | ⟨_, huneven, _⟩ | ⟨_, _, hsend⟩ := execRaw_cases p s
  · omega
  · exact absurd h huneven
  · exact hsend

/-- Settles O23: the remainder of the payload is what follows the 4 frequency bytes, whose assembly fits in 32 bits. -/
theorem rawFrameSendsItsIntervals : Obligations.RawFrameSendsItsIntervals := by
  intro s f0 f1 f2 f3 remainder _ hwhole
  have hval := toNat_ofNat_asm s.cfg.byteOrder (w := 32) (bs := [f0, f1, f2, f3]) rfl
  exact ⟨BitVec.ofNat 32 (asm s.cfg.byteOrder [f0, f1, f2, f3]), fun ho => by rw [hval, ho, asm_le_four],
    fun ho => by rw [hval, ho, asm_be_four],
    exec_raw_shaped (p := f0 :: f1 :: f2 :: f3 :: remainder) s (Nat.le_add_left 4 _) hwhole⟩

/-- Settles O25: the two branches of the shape check. -/
theorem illShapedRawFrameIsReported : Obligations.IllShapedRawFrameIsReported :=
  fun s _ => ⟨exec_raw_short s, exec_raw_uneven s⟩

/-- Settles O26: the copy is a byte string written at 0 into a memory that lists nothing. -/
theorem scratchHoldsTheRemainder : Obligations.ScratchHoldsTheRemainder := by
  intro s remainder j
  refine ⟨?_, rfl, Memory.writeBytes_wf remainder [] 0 List.Pairwise.nil⟩
  rw [State.copyToScratch_scr, Memory.read_writeBytes, Memory.read_nil]
  split_ifs with hj
  · rfl
  · exact (List.getElem?_eq_none (by omega)).symm

/-! ### What no dispatch writes -/

/-- R160: `t` stands in the walk, over the message and at the ports where `s` does. -/
structure State.sameControl (s t : State) : Prop where
  cur : t.cur = s.cur
  idx : t.idx = s.idx
  nfr : t.nfr = s.nfr
  foff : t.foff = s.foff
  flen : t.flen = s.flen
  mbase : t.mbase = s.mbase
  mlen : t.mlen = s.mlen
  cfg : t.cfg = s.cfg
  port : t.port = s.port
  rdCall : t.rdCall = s.rdCall
  mem : t.mem = s.mem

/-- R160: each form an instruction can end in is a chain of handler register moves. -/
theorem exec_sameControl {i : Instr} {s t : State} (h : exec i s = .next t) : s.sameControl t := by
  rcases exec_next_cases h with ⟨_, _, rfl⟩ | ⟨_, _, _, _, rfl⟩ | ⟨_, _, _, _, rfl⟩ | ⟨_, _, _, _, rfl⟩ |
    ⟨_, _, _, _, rfl⟩ | ⟨_, _, _, _, rfl⟩ | ⟨_, _, _, _, _, rfl⟩ | ⟨_, _, _, _, _, rfl⟩ | ⟨_, _, rfl⟩ <;>
    constructor <;> simp

/-- Settles O32: the control registers stand, and the whole memory, so every byte of it. -/
theorem noInstructionTransfersControl : Obligations.NoInstructionTransfersControl := by
  intro s t i h
  obtain ⟨hcur, hidx, hnfr, hfoff, hflen, hmbase, hmlen, hcfg, hport, hcall, hmem⟩ := exec_sameControl h
  exact ⟨hcur, hidx, hnfr, hfoff, hflen, hmbase, hmlen, hcfg, hport, hcall, fun a => by rw [hmem]⟩

/-- Settles O33: the register moves of each form an instruction can end in, against the writers of each register. -/
theorem handlerRegistersHaveOneWriter : Obligations.HandlerRegistersHaveOneWriter := by
  intro s t i h
  rcases exec_next_cases h with ⟨k, rfl, rfl⟩ | ⟨tag, p, k, rfl | rfl, rfl⟩ | ⟨tag, p, k, rfl | rfl | rfl, rfl⟩ |
    ⟨tag, p, v, rfl, rfl⟩ | ⟨tag, p, v, rfl, rfl⟩ | ⟨tag, p, k, rfl, rfl⟩ | ⟨tag, p, f, e, rfl, rfl⟩ |
    ⟨tag, p, r, e, rfl, rfl⟩ | ⟨v, hi, rfl⟩
  case inr.inr.inr.inr.inr.inr.inr.inr => simp [hi]
  all_goals simp [Instr.isFrame]

/-! ### The one event -/

/-- The event of a Raw frame of the required shape. -/
theorem rawEvent_shaped {c : Cfg} {p : List Byte} (h4 : 4 ≤ p.length) (h : (p.length - 4) % c.iwb.bytes = 0) :
    rawEvent c p =
      .rawIntervals (BitVec.ofNat 32 (asm c.byteOrder (p.take 4))) (remainderIntervals c (p.drop 4)) := by
  simp [rawEvent, Nat.not_lt.2 h4, h]

/-- The event of a Raw frame of any other shape. -/
theorem rawEvent_illShaped {c : Cfg} {p : List Byte} (h : p.length < 4 ∨ (p.length - 4) % c.iwb.bytes ≠ 0) :
    rawEvent c p = .diag .invalidRawLength :=
  if_pos h

/-- Settles O31, branch by branch of each handler. -/
theorem dispatchAppendsExactlyOneEvent : Obligations.DispatchAppendsExactlyOneEvent := by
  intro s i hf hwf
  cases i with
  | empty => exact ⟨_, _, exec_empty s, rfl, rfl, rfl⟩
  | std tag p =>
    by_cases h : p.length = 4
    · exact ⟨_, _, exec_std_sends tag s h, if_neg (not_not_intro h), rfl, rfl⟩
    · exact ⟨_, _, exec_std_reports tag s h, if_pos h, rfl, rfl⟩
  | delay p =>
    by_cases h : p.length = 2
    · exact ⟨_, _, exec_delay_waits s h, if_neg (not_not_intro h), rfl, rfl⟩
    · exact ⟨_, _, exec_delay_reports s h, if_pos h, rfl, rfl⟩
  | raw p =>
    by_cases h4 : p.length < 4
    · exact ⟨_, _, exec_raw_short s h4, congrArg ([·]) (rawEvent_illShaped (.inl h4)), rfl, rfl⟩
    · by_cases h : (p.length - 4) % s.cfg.iwb.bytes = 0
      · exact ⟨_, _, exec_raw_shaped s (Nat.not_lt.1 h4) h, congrArg ([·]) (rawEvent_shaped (Nat.not_lt.1 h4) h),
          rfl, rfl⟩
      · exact ⟨_, _, exec_raw_uneven s (Nat.not_lt.1 h4) h, congrArg ([·]) (rawEvent_illShaped (.inr h)), rfl, rfl⟩
  | pana p => exact ⟨_, _, exec_pana p s ((payloadFits_iff p).1 hwf), rfl, rfl, rfl⟩
  | unknown tag p => exact ⟨_, _, exec_unknown tag p s, rfl, rfl, rfl⟩
  | rd8 | rd16 | rd32 | rdiw => cases hf

/-! ### Diagnostics -/

/-- R210: a diagnostic that stops the cycle. -/
theorem raiseDiag_of_stops {k : DiagKind} (h : k.stopsCycle = true) (s : State) :
    s.raiseDiag k = { s with out := s.out ++ [.diag k], phase := .idle } := by
  simp [State.raiseDiag, h]

/-- Settles O34: the codes by evaluation; the kinds that stop the cycle are the three named, and the others skip a frame. -/
theorem diagnosticsTakeTheirControlAction : Obligations.DiagnosticsTakeTheirControlAction := by
  refine ⟨fun _ => rfl, fun s k => ⟨?_, ?_⟩⟩
  · rintro (rfl | rfl | rfl) <;> exact raiseDiag_of_stops rfl s
  · rintro ⟨hoverrun, htrailing, hbounds⟩
    have hskips : k.stopsCycle = false := by
      cases k with
      | frameOverrun => exact absurd rfl hoverrun
      | trailingOrTruncatedData => exact absurd rfl htrailing
      | readOutOfBounds => exact absurd rfl hbounds
      | emptyFrame | unexpectedPayloadSize | invalidRawLength | unknownEncoding => rfl
    exact raiseDiag_of_skips hskips s

end Sys2Proof.Machine
end
section
/-! Reset, and the moves of the frame decoder in the forward direction (41_frame_decoder.md, 70_reset_and_hazards.md): which
step the machine takes from what stands in the message, one equation per branch. -/

namespace Sys2Proof.Machine

/-! ### Reset and configuration -/

/-- Settles O1: each field of the reset state, and an idle block with nothing presented. -/
theorem resetIsIdleWithNothingEmitted : Obligations.ResetIsIdleWithNothingEmitted :=
  ⟨rfl, rfl, rfl, rfl, rfl, step_rest State.reset rfl rfl rfl rfl⟩

/-- Settles O2: the memories list nothing, the block is idle, and the bounded registers hold zero. -/
theorem resetMeetsTheInvariant : Obligations.ResetMeetsTheInvariant where
  memWf := List.Pairwise.nil
  memRange := by simp [State.reset]
  msgRange := by decide
  scrReleased := ⟨rfl, rfl⟩
  curInside := nofun
  idxLe := nofun
  frameInside := nofun
  outCount := nofun
  plenLe := Nat.zero_le _
  rlenLe := Nat.zero_le _
  nivLe := Nat.zero_le _
  pbyteLe := Nat.zero_le _

/-- Settles O4: the reset state is idle, so of the invariant only what is said of the buffer remains to show. -/
theorem hostResetDuringACycle : Obligations.HostResetDuringACycle := by
  intro s hinv hrun
  refine ⟨by rw [State.assertReset, hrun], ?_⟩
  exact {
    resetMeetsTheInvariant with
    memWf := hinv.memWf
    memRange := hinv.memRange
    outCount := nofun
    nivLe := Nat.zero_le _ }

/-- R9, D21: no step of a state whose configuration breaks R8. -/
theorem step_illFormed (s : State) (h : s.cfg.wf = false) : step s = .refused .illFormedConfig := if_pos h

/-- Settles O5: each clause contradicts one of R8's. -/
theorem illFormedConfigurationIsRefused : Obligations.IllFormedConfigurationIsRefused := by
  intro s hbad
  refine step_illFormed s (eq_false_of_ne_true fun hwf => ?_)
  obtain ⟨⟨hdelay, hraw, hpana⟩, hdr, hdp, hrp⟩ := (cfg_wf_iff s.cfg).1 hwf
  obtain h | h | h | h | h | h := hbad
  · omega
  · omega
  · omega
  · exact hdr h
  · exact hdp h
  · exact hrp h

/-! ### Reader calls -/

/-- Settles O36: a call's width is the width of one operation, the one its select decodes to. -/
theorem stepRunsTheReaderCall : Obligations.StepRunsTheReaderCall := by
  intro s call hwf hcall
  refine ⟨call.instr, ?_, step_call s call hwf hcall⟩
  obtain ⟨w, off⟩ := call
  cases w <;> rfl

/-! ### Acceptance -/

/-- R64: a transaction past the address space. -/
theorem accept_outOfRange (s : State) (t : Transaction) (h : 2 ^ 32 < t.base.toNat + t.len.toNat) :
    s.accept t = .refused .addressRange := if_pos h

/-- R125: an empty message. -/
theorem accept_empty (s : State) (base : Addr) :
    s.accept ⟨base, 0⟩ = .next ((s.latch ⟨base, 0⟩).raiseDiag .trailingOrTruncatedData) := by
  have hr : ¬ 2 ^ 32 < base.toNat + (0 : Offset).toNat := Nat.not_lt.2 base.isLt.le
  rw [State.accept, if_neg hr]
  rfl

/-- R253, R121: a message in range whose count byte is there. -/
theorem accept_count (s : State) (t : Transaction) (count : Byte) (hr : t.base.toNat + t.len.toNat ≤ 2 ^ 32)
    (h0 : 0 < t.len.toNat) (hb : s.mem.read t.base.toNat = some count) :
    s.accept t = .next ((s.latch t).startWalk count) := by
  have hne : t.len ≠ 0 := by rintro h; simp [h] at h0
  simp only [State.accept, if_neg (Nat.not_lt.2 hr), if_neg hne, msgRd8_ok (s.latch t) 0 count h0 hb]

/-- The length of an offered message is presented exactly. -/
theorem State.offered.toNat_length {s : State} {base : Addr} {bytes : List Byte} (h : s.offered base bytes) :
    (BitVec.ofNat 32 bytes.length).toNat = bytes.length := by
  rw [BitVec.toNat_ofNat, Nat.mod_eq_of_lt h.lengthFits]

/-- Settles O37: the count byte is the first of the bytes the buffer holds. -/
theorem acceptanceReadsTheCount : Obligations.AcceptanceReadsTheCount := by
  intro s base count rest hwf hoff
  rw [step_accept s _ hwf hoff.noCall hoff.idle hoff.presented]
  refine accept_count s _ count ?_ ?_ (by simpa using hoff.held 0 (Nat.succ_pos _))
  · rw [hoff.toNat_length]; exact hoff.inRange
  · rw [hoff.toNat_length]; exact Nat.succ_pos _

/-- Settles O38: a presented length of 0. -/
theorem emptyMessageIsReported : Obligations.EmptyMessageIsReported := by
  intro s base hwf hoff
  rw [step_accept s _ hwf hoff.noCall hoff.idle hoff.presented]
  exact accept_empty s base

/-- Settles O39: acceptance tests the range first. -/
theorem messagePastTheAddressSpaceIsRefused : Obligations.MessagePastTheAddressSpaceIsRefused :=
  fun s t hwf hcall hidle hport h => (step_accept s t hwf hcall hidle hport).trans (accept_outOfRange s t h)

/-! ### A turn of the loop -/

/-- A step of a walk with a frame due is a turn of the loop. -/
theorem step_frame (s : State) (hwf : s.cfg.wf = true) (hcall : s.rdCall = none) (hrun : s.phase = .run)
    (hdue : s.idx ≠ s.nfr) : step s = s.frameStep := by
  rw [step_run s hwf hcall hrun, if_neg hdue]

/-- R126: no byte left for the length. -/
theorem frameStep_missing {s : State} (h : s.cur = s.mlen) :
    s.frameStep = .next (s.raiseDiag .trailingOrTruncatedData) := if_pos h

/-- R121: the length byte is read and the frame taken. -/
theorem frameStep_length {s : State} {len : Byte} (h : s.cur.toNat < s.mlen.toNat)
    (hb : s.msgByte s.cur.toNat = some len) : s.frameStep = (s.takeLength len).takeFrame := by
  have hne : s.cur ≠ s.mlen := by rintro h'; simp [h'] at h
  simp only [State.frameStep, if_neg hne, msgRd8_ok s s.cur len h hb]

/-- R124: the comparison with `MLEN - CUR` does not overflow while the cursor is inside the message. -/
theorem overrun_iff {s : State} (h : s.cur.toNat ≤ s.mlen.toNat) :
    s.mlen - s.cur < s.flen.setWidth 32 ↔ s.mlen.toNat < s.cur.toNat + s.flen.toNat := by
  have := s.flen.isLt
  bv_omega

/-- The cursor past a length byte inside the message. -/
theorem toNat_cur_succ {s : State} (h : s.cur.toNat < s.mlen.toNat) : (s.cur + 1).toNat = s.cur.toNat + 1 := by
  have := s.mlen.isLt
  bv_omega

/-- R124: the length byte claims more than remains after it. -/
theorem frameStep_overrun {s : State} {len : Byte} (h : s.cur.toNat < s.mlen.toNat)
    (hb : s.msgByte s.cur.toNat = some len) (hover : s.mlen.toNat - (s.cur.toNat + 1) < len.toNat) :
    s.frameStep = .next ((s.takeLength len).raiseDiag .frameOverrun) := by
  have hcur : (s.takeLength len).cur.toNat = s.cur.toNat + 1 := toNat_cur_succ h
  rw [frameStep_length h hb, State.takeFrame, if_pos]
  rw [overrun_iff (hcur.trans_le h), hcur, State.takeLength_mlen, State.takeLength_flen]
  omega

/-- R121: a frame whose length byte and body are in the message is yielded and dispatched. -/
theorem frameStep_dispatches {s : State} {len : Byte} {body : List Byte} (hlen : body.length = len.toNat)
    (hfit : s.cur.toNat + (body.length + 1) ≤ s.mlen.toNat)
    (hheld : ∀ k < body.length + 1, s.msgByte (s.cur.toNat + k) = (len :: body)[k]?) :
    s.frameStep = exec (decodeBody s.cfg body) (s.takeLength len).yieldFrame := by
  have hlt : s.cur.toNat < s.mlen.toNat := by omega
  have hcur : (s.takeLength len).cur.toNat = s.cur.toNat + 1 := toNat_cur_succ hlt
  have hbody : (s.takeLength len).msgBytes (s.takeLength len).cur (s.takeLength len).flen.toNat = .ok body := by
    rw [State.msgBytes, hcur, State.takeLength_flen, ← hlen]
    refine readBytes_ok _ _ _ body (by rw [State.takeLength_mlen]; omega) fun k hk => ?_
    rw [State.takeLength_msgByte, Nat.add_assoc, Nat.add_comm 1 k, hheld (k + 1) (by omega), List.getElem?_cons_succ]
  have hinside : ¬ (s.takeLength len).mlen - (s.takeLength len).cur < (s.takeLength len).flen.setWidth 32 := by
    rw [overrun_iff (hcur.trans_le hlt), hcur, State.takeLength_mlen, State.takeLength_flen]
    omega
  rw [frameStep_length hlt (by simpa using hheld 0 (Nat.succ_pos _)), State.takeFrame, if_neg hinside, hbody]
  rfl

/-- Bytes that decode with nothing left over are a length byte and exactly the body it announces. -/
theorem decodeFrame_exact {c : Cfg} {len : Byte} {body : List Byte} {i : Instr}
    (h : decodeFrame c (len :: body) = .ok i []) : body.length = len.toNat ∧ decodeBody c body = i := by
  simp only [decodeFrame] at h
  split_ifs at h with hcut
  obtain ⟨rfl, hdrop⟩ := Decoded.ok.inj h
  have hle : body.length ≤ len.toNat := List.drop_eq_nil_iff.1 hdrop
  exact ⟨by omega, by rw [List.take_of_length_le hle]⟩

/-- Settles O35: the decoded body is the one the turn of the loop dispatches. -/
theorem stepRunsTheDecodedFrame : Obligations.StepRunsTheDecodedFrame := by
  intro s len body i hwf hcall hrun hdue hfit hheld hdec
  obtain ⟨hlen, rfl⟩ := decodeFrame_exact hdec
  rw [step_frame s hwf hcall hrun hdue]
  exact frameStep_dispatches hlen hfit hheld

/-- Settles O40: the turn of the loop with the cursor at the message end. -/
theorem missingLengthByteStopsTheCycle : Obligations.MissingLengthByteStopsTheCycle :=
  fun s hwf hcall hrun hdue h => (step_frame s hwf hcall hrun hdue).trans (frameStep_missing h)

/-- Settles O41: the turn of the loop with a length byte that claims too much. -/
theorem overrunStopsTheCycle : Obligations.OverrunStopsTheCycle :=
  fun s _ hwf hcall hrun hdue hlt hb hover =>
    (step_frame s hwf hcall hrun hdue).trans (frameStep_overrun hlt hb hover)

end Sys2Proof.Machine
end
section
/-! How a step can end (R16): it goes on, or it is refused for the configuration's or the host's sake. `completes` says of one
move that the host's buffer alone can stop it; every move of the machine but the acceptance is shown to complete. -/

namespace Sys2Proof.Machine

/-- The outcome `o` of a move over the message of `s`: the machine goes on, or a byte of the message is not in the buffer. -/
def State.completes (s : State) (o : Host.Outcome State Fault Refusal) : Prop :=
  (∃ t, o = .next t) ∨ (o = .refused .bufferUnreadable ∧ ¬ s.readable)

/-! ### Reads of the message -/

/-- R101, R259: a read of the message fails at its bounds or for want of a byte the host owes. -/
theorem msgBytes_error {s : State} {off : Offset} {n : Nat} {e : ReadError} (h : s.msgBytes off n = .error e) :
    e = .outOfBounds ∨ ¬ s.readable := by
  obtain ⟨he, _⟩ | ⟨_, hfit, k, hk, hnone⟩ := readBytes_error _ _ _ _ _ h
  · exact .inl he
  · exact .inr fun hr => by simpa [hnone] using hr (off.toNat + k) (by omega)

theorem msgRd_error {s : State} {w : Nat} {off : Offset} {e : ReadError} (h : s.msgRd w off = .error e) :
    e = .outOfBounds ∨ ¬ s.readable := by
  obtain ⟨he, _⟩ | ⟨_, hfit, k, hk, hnone⟩ := rd_error _ _ _ _ _ _ h
  · exact .inl he
  · exact .inr fun hr => by simpa [hnone] using hr (off.toNat + k) (by omega)

/-- R217, R259: what a caller makes of such a failure. -/
theorem readFailed_completes {s : State} {e : ReadError} (h : e = .outOfBounds ∨ ¬ s.readable) :
    s.completes (s.readFailed e) := by
  cases e with
  | outOfBounds => exact .inl ⟨_, rfl⟩
  | noValue => exact .inr ⟨rfl, h.resolve_left nofun⟩

theorem returnRead_completes {α : Type} {s : State} {r : Except ReadError α} {f : α → ReadOut}
    (h : ∀ e, r = .error e → e = .outOfBounds ∨ ¬ s.readable) : s.completes (s.returnRead (r.map f)) := by
  cases r with
  | ok v => exact .inl ⟨_, rfl⟩
  | error e =>
    cases e with
    | outOfBounds => exact .inl ⟨_, rfl⟩
    | noValue => exact .inr ⟨rfl, (h _ rfl).resolve_left nofun⟩

/-! ### The moves of the machine -/

/-- A reader call. -/
theorem readerStep_completes (s : State) (call : ReaderCall) : s.completes (s.readerStep call) := by
  obtain ⟨w, off⟩ := call
  cases w with
  | one =>
    rw [show s.readerStep ⟨.one, off⟩ = _ from exec_rd8 s.takeCall off]
    exact returnRead_completes (s := s.takeCall) fun _ => msgRd_error
  | two =>
    rw [show s.readerStep ⟨.two, off⟩ = _ from exec_rd16 s.takeCall off]
    exact returnRead_completes (s := s.takeCall) fun _ => msgRd_error
  | four =>
    rw [show s.readerStep ⟨.four, off⟩ = _ from exec_rd32 s.takeCall off]
    exact returnRead_completes (s := s.takeCall) fun _ => msgRd_error

theorem tailCheck_completes (s : State) : s.completes s.tailCheck := by
  by_cases h : s.cur = s.mlen
  · exact .inl ⟨_, tailCheck_exactEnd h⟩
  · exact .inl ⟨_, tailCheck_leftOver h⟩

/-- R161: the body of a frame that has been read is dispatched, and every dispatch goes on. -/
theorem takeFrame_completes (s : State) : s.completes s.takeFrame := by
  unfold State.takeFrame
  split_ifs with hover
  · exact .inl ⟨_, rfl⟩
  · cases hbody : s.msgBytes s.cur s.flen.toNat with
    | error e => exact readFailed_completes (msgBytes_error hbody)
    | ok body =>
      obtain ⟨_, hlen, _⟩ := readBytes_spec _ _ _ _ _ hbody
      obtain ⟨hwf, hframe, _⟩ := decodeBody_encode s.cfg body (hlen ▸ Nat.le_of_lt_succ s.flen.isLt)
      obtain ⟨t, _, ht, _⟩ := dispatchAppendsExactlyOneEvent s.yieldFrame _ hframe hwf
      exact .inl ⟨t, ht⟩

theorem frameStep_completes (s : State) : s.completes s.frameStep := by
  unfold State.frameStep
  split_ifs with hend
  · exact .inl ⟨_, rfl⟩
  · cases hlen : s.msgRd 8 s.cur with
    | error e => exact readFailed_completes (msgRd_error hlen)
    | ok len => exact takeFrame_completes (s.takeLength len)

/-- R64, R259: acceptance goes on, or the presented message is out of range, or it is not in the buffer. -/
theorem accept_outcome (s : State) (tr : Transaction) :
    (∃ t, s.accept tr = .next t) ∨
    (s.accept tr = .refused .addressRange ∧ 2 ^ 32 < tr.base.toNat + tr.len.toNat) ∨
    (s.accept tr = .refused .bufferUnreadable ∧ ∃ k < tr.len.toNat, s.mem.read (tr.base.toNat + k) = none) := by
  simp only [State.accept]
  split_ifs with hrange hempty
  · exact .inr (.inl ⟨rfl, hrange⟩)
  · exact .inl ⟨_, rfl⟩
  · cases hcount : (s.latch tr).msgRd 8 0 with
    | ok n => exact .inl ⟨_, rfl⟩
    | error e =>
      obtain hnext | ⟨href, hmissing⟩ := readFailed_completes (msgRd_error hcount)
      · exact .inl hnext
      · refine .inr (.inr ⟨href, ?_⟩)
        by_contra hnone
        refine hmissing fun k hk => Option.isSome_iff_ne_none.2 fun hk' => hnone ⟨k, hk, hk'⟩

/-- R16: a step ends as a move of the machine does, unless R8 is broken or it is an acceptance. -/
theorem step_outcome (s : State) :
    s.completes (step s) ∨ (step s = .refused .illFormedConfig ∧ s.cfg.wf = false) ∨
      ∃ tr, s.port = some tr ∧ step s = s.accept tr := by
  cases hwf : s.cfg.wf with
  | false => exact .inr (.inl ⟨step_illFormed s hwf, rfl⟩)
  | true =>
    cases hcall : s.rdCall with
    | some call => exact .inl (step_call s call hwf hcall ▸ readerStep_completes s call)
    | none =>
      cases hphase : s.phase with
      | run =>
        by_cases hdue : s.idx = s.nfr
        · exact .inl (by rw [step_run s hwf hcall hphase, if_pos hdue]; exact tailCheck_completes s)
        · exact .inl (step_frame s hwf hcall hphase hdue ▸ frameStep_completes s)
      | idle =>
        cases hport : s.port with
        | none => exact .inl (.inl ⟨s, step_rest s hwf hcall hphase hport⟩)
        | some tr => exact .inr (.inr ⟨tr, rfl, step_accept s tr hwf hcall hphase hport⟩)

/-! ### The statements -/

/-- Settles O47: of the ways a step can end, the refusals. -/
theorem onlyConfigurationAndHostAreRefused : Obligations.OnlyConfigurationAndHostAreRefused := by
  intro s r h
  obtain (⟨t, ht⟩ | ⟨hr, hread⟩) | ⟨hr, hwf⟩ | ⟨tr, hport, haccept⟩ := step_outcome s
  · rw [ht] at h; cases h
  · exact .inr (.inr (.inl ⟨Host.Outcome.refused.inj (h.symm.trans hr), hread⟩))
  · exact .inl ⟨Host.Outcome.refused.inj (h.symm.trans hr), hwf⟩
  · rw [haccept] at h
    obtain ⟨t, ht⟩ | ⟨hr, hrange⟩ | ⟨hr, hmissing⟩ := accept_outcome s tr
    · rw [ht] at h; cases h
    · exact .inr (.inl ⟨Host.Outcome.refused.inj (h.symm.trans hr), tr, hport, hrange⟩)
    · exact .inr (.inr (.inr ⟨Host.Outcome.refused.inj (h.symm.trans hr), tr, hport, hmissing⟩))

/-- R16: no move of the machine, and so no step, faults. -/
theorem step_ne_fault (s : State) (f : Fault) : step s ≠ .fault f := by
  obtain (⟨t, h⟩ | ⟨h, _⟩) | ⟨h, _⟩ | ⟨tr, _, haccept⟩ := step_outcome s
  · simp [h]
  · simp [h]
  · simp [h]
  · obtain ⟨t, h⟩ | ⟨h, _⟩ | ⟨h, _⟩ := accept_outcome s tr <;> simp [haccept, h]

/-- Settles O46: no step faults, and under the host's duties none of the refusals of O47 can be. -/
theorem noStepCrashes : Obligations.NoStepCrashes := by
  refine fun s => ⟨step_ne_fault s, fun _ hwf hreadable hhost => ?_⟩
  cases h : step s with
  | next t => exact ⟨t, rfl⟩
  | fault f => exact absurd h (step_ne_fault s f)
  | refused r =>
    obtain ⟨_, hbad⟩ | ⟨_, tr, hport, hrange⟩ | ⟨_, hread⟩ | ⟨_, tr, hport, k, hk, hmissing⟩ :=
      onlyConfigurationAndHostAreRefused s r h
    · simp [hbad] at hwf
    · exact absurd (hhost tr hport).1 (Nat.not_le.2 hrange)
    · exact absurd hreadable hread
    · simpa [hmissing] using (hhost tr hport).2 k hk

end Sys2Proof.Machine
end
section
/-! The invariant of the machine (41_frame_decoder.md section 4, 10_state.md): what a step of a walk can be while the cursor is
inside the message, and what each of these moves does to the invariant's clauses. -/

namespace Sys2Proof.Machine

/-! ### What a busy block leaves alone -/

/-- R23, R258: `t` has latched the message `s` has, and has the same transaction and reader call at its ports. -/
def State.sameLatch (s t : State) : Prop :=
  t.port = s.port ∧ t.mbase = s.mbase ∧ t.mlen = s.mlen ∧ t.rdCall = s.rdCall

theorem takeFrame_sameLatch {s t : State} (h : s.takeFrame = .next t) : s.sameLatch t := by
  rcases takeFrame_next_cases h with ⟨_, rfl⟩ | ⟨_, _, rfl⟩ | ⟨_, _, _, hx⟩
  · exact ⟨rfl, rfl, rfl, rfl⟩
  · exact ⟨rfl, rfl, rfl, rfl⟩
  · have hsame := exec_sameControl hx
    exact ⟨hsame.port, hsame.mbase, hsame.mlen, hsame.rdCall⟩

theorem frameStep_sameLatch {s t : State} (h : s.frameStep = .next t) : s.sameLatch t := by
  rcases frameStep_next_cases h with ⟨_, rfl⟩ | ⟨_, _, rfl⟩ | ⟨_, _, _, hf⟩
  · exact ⟨rfl, rfl, rfl, rfl⟩
  · exact ⟨rfl, rfl, rfl, rfl⟩
  · simpa [State.sameLatch] using takeFrame_sameLatch hf

theorem tailCheck_sameLatch {s t : State} (h : s.tailCheck = .next t) : s.sameLatch t := by
  obtain ⟨_, rfl⟩ | ⟨_, rfl⟩ := tailCheck_next_cases h <;> exact ⟨rfl, rfl, rfl, rfl⟩

/-- Settles O43: a busy block answers a reader call or goes on with its walk. -/
theorem busyBlockAcceptsNothing : Obligations.BusyBlockAcceptsNothing := by
  intro s t hbusy h
  have hrun : s.phase = .run := eq_of_beq hbusy
  obtain ⟨_, ⟨_, _, hcall⟩ | ⟨_, hidle, _⟩ | ⟨_, _, hidle, _⟩ | ⟨_, _, _, htail⟩ | ⟨_, _, _, hframe⟩⟩ :=
    step_next_cases h
  · obtain ⟨v, rfl⟩ := readerStep_next hcall
    exact ⟨rfl, rfl, rfl⟩
  · simp [hrun] at hidle
  · simp [hrun] at hidle
  · obtain ⟨hport, hbase, hlen, _⟩ := tailCheck_sameLatch htail
    exact ⟨hport, hbase, hlen⟩
  · obtain ⟨hport, hbase, hlen, _⟩ := frameStep_sameLatch hframe
    exact ⟨hport, hbase, hlen⟩

/-! ### A step of a walk inside the message -/

/-- R123: while the cursor is inside the message no read of the walk is out of bounds, so a turn of the loop that goes on is a
missing length byte, an overrun, or the dispatch of a frame that lies in the message. -/
theorem frameStep_inside_cases {s t : State} (hin : s.cur.toNat ≤ s.mlen.toNat) (h : s.frameStep = .next t) :
    t = s.raiseDiag .trailingOrTruncatedData ∨
    (∃ len : Byte, s.cur.toNat < s.mlen.toNat ∧ t = (s.takeLength len).raiseDiag .frameOverrun) ∨
    (∃ (len : Byte) (body : List Byte), body.length = len.toNat ∧ s.cur.toNat + 1 + len.toNat ≤ s.mlen.toNat ∧
      exec (decodeBody s.cfg body) (s.takeLength len).yieldFrame = .next t) := by
  obtain ⟨_, rfl⟩ | ⟨hne, hread, _⟩ | ⟨len, hne, _, hframe⟩ := frameStep_next_cases h
  · exact .inl rfl
  · have hlt : s.cur.toNat ≠ s.mlen.toNat := fun h => hne (BitVec.eq_of_toNat_eq h)
    obtain ⟨_, hout⟩ | ⟨he, _⟩ := rd_error _ _ _ _ _ _ hread
    · omega
    · cases he
  · have hlt : s.cur.toNat < s.mlen.toNat := lt_of_le_of_ne hin fun h => hne (BitVec.eq_of_toNat_eq h)
    have hcur : (s.takeLength len).cur.toNat = s.cur.toNat + 1 := toNat_cur_succ hlt
    obtain ⟨_, rfl⟩ | ⟨hread, hfits, _⟩ | ⟨body, _, hbody, hexec⟩ := takeFrame_next_cases hframe
    · exact .inr (.inl ⟨len, hlt, rfl⟩)
    · rw [overrun_iff (hcur.trans_le hlt)] at hfits
      obtain ⟨_, hout⟩ | ⟨he, _⟩ := readBytes_error _ _ _ _ _ hread
      · exact absurd hout hfits
      · cases he
    · obtain ⟨hfits, hlen, _⟩ := readBytes_spec _ _ _ _ _ hbody
      rw [hcur] at hfits
      exact .inr (.inr ⟨len, body, hlen, hfits, hexec⟩)

/-- Every step of a walk that goes on, in a state of the invariant. -/
theorem walk_next_cases {s t : State} (hinv : s.Inv) (hrun : s.phase = .run) (h : step s = .next t) :
    (∃ v, t = s.takeCall.setRead v) ∨ t = s.endCycle ∨ t = s.raiseDiag .trailingOrTruncatedData ∨
    (∃ len : Byte, s.cur.toNat < s.mlen.toNat ∧ t = (s.takeLength len).raiseDiag .frameOverrun) ∨
    (s.idx ≠ s.nfr ∧ ∃ (len : Byte) (body : List Byte), body.length = len.toNat ∧
      s.cur.toNat + 1 + len.toNat ≤ s.mlen.toNat ∧
      exec (decodeBody s.cfg body) (s.takeLength len).yieldFrame = .next t) := by
  obtain ⟨_, ⟨_, _, hcall⟩ | ⟨_, hidle, _⟩ | ⟨_, _, hidle, _⟩ | ⟨_, _, _, htail⟩ | ⟨_, _, hdue, hframe⟩⟩ :=
    step_next_cases h
  · exact .inl (readerStep_next hcall)
  · simp [hrun] at hidle
  · simp [hrun] at hidle
  · obtain ⟨_, ht⟩ | ⟨_, ht⟩ := tailCheck_next_cases htail
    · exact .inr (.inr (.inl ht))
    · exact .inr (.inl ht)
  · obtain ⟨_, hin⟩ := hinv.curInside hrun
    obtain ht | ht | hx := frameStep_inside_cases hin hframe
    · exact .inr (.inr (.inl ht))
    · exact .inr (.inr (.inr (.inl ht)))
    · exact .inr (.inr (.inr (.inr ⟨hdue, hx⟩)))

/-! ### The dispatch of a frame of the message -/

/-- R161 for a body cut by its length byte: what its dispatch adds to `OUT`, and that the cycle goes on. -/
theorem exec_body_next {s : State} {len : Byte} {body : List Byte} (hlen : body.length = len.toNat) :
    ∃ (t : State) (e : Event), exec (decodeBody s.cfg body) s = .next t ∧
      instrEvent s.cfg (decodeBody s.cfg body) = [e] ∧ t.out = s.out ++ [e] ∧ t.phase = s.phase := by
  obtain ⟨hwf, hframe, _⟩ := decodeBody_encode s.cfg body (hlen ▸ Nat.le_of_lt_succ len.isLt)
  exact dispatchAppendsExactlyOneEvent s _ hframe hwf

/-- R27, R130: the cursor past a frame that lies in the message. -/
theorem toNat_cur_yield {s : State} {len : Byte} (h : s.cur.toNat + 1 + len.toNat ≤ s.mlen.toNat) :
    (s.takeLength len).yieldFrame.cur.toNat = s.cur.toNat + 1 + len.toNat := by
  have := s.mlen.isLt
  simp only [State.yieldFrame_cur, State.takeLength_cur, State.takeLength_flen]
  bv_omega

/-- R25: the index below the count does not wrap. -/
theorem toNat_idx_succ {s : State} (h : s.idx.toNat < s.nfr.toNat) : (s.idx + 1).toNat = s.idx.toNat + 1 := by
  have := s.nfr.isLt
  bv_omega

/-! ### The registers of the handlers -/

/-- The clauses of the invariant about the registers the handlers write (R28, R30, R178, R196). -/
structure State.HandlerInv (s : State) : Prop where
  scrReleased : s.scrValid = false ∧ s.scr = []
  plenLe : s.plen.toNat ≤ 254
  rlenLe : s.rlen.toNat ≤ 250
  nivLe : s.niv.toNat ≤ 250 / s.cfg.iwb.bytes
  pbyteLe : s.pbyte.toNat ≤ 253

theorem State.Inv.handlerInv {s : State} (h : s.Inv) : s.HandlerInv :=
  ⟨h.scrReleased, h.plenLe, h.rlenLe, h.nivLe, h.pbyteLe⟩

theorem handlerInv_loadTag {s : State} (h : s.HandlerInv) (tag : Byte) {n : Nat} (hn : n ≤ 254) :
    (s.loadTag tag n).HandlerInv :=
  { h with plenLe := by rw [State.loadTag_plen, BitVec.toNat_ofNat]; omega }

theorem handlerInv_setRlen {s : State} (h : s.HandlerInv) {n : Nat} (hn : n ≤ 250) : (s.setRlen n).HandlerInv :=
  { h with rlenLe := by rw [State.setRlen_rlen, BitVec.toNat_ofNat]; omega }

theorem handlerInv_loadRaw {s : State} (h : s.HandlerInv) (f : U32) {n : Nat} (hn : n ≤ 250) :
    (s.loadRaw f n).HandlerInv :=
  have hniv : (s.loadRaw f n).niv.toNat ≤ 250 / s.cfg.iwb.bytes := by
    rw [State.loadRaw_niv, BitVec.toNat_ofNat]
    exact (Nat.mod_le _ _).trans (Nat.div_le_div_right hn)
  { h with nivLe := hniv }

theorem handlerInv_loadPana {s : State} (h : s.HandlerInv) {r : PanaRegs} (hr : r.pbyte.toNat ≤ 253) :
    (s.loadPana r).HandlerInv :=
  { h with pbyteLe := hr }

/-- Where `PBYTE` ends for a payload that fits a frame. -/
theorem toNat_lastByte {n : Nat} (h : n ≤ 254) : (BitVec.ofNat 8 (n - 1)).toNat ≤ 253 := by
  rw [BitVec.toNat_ofNat]; omega

/-- R28, R30, R178, R196: every well-formed instruction keeps the handlers' registers in their ranges and the
scratch buffer released. -/
theorem exec_handlerInv {i : Instr} {s t : State} (hwf : i.wf s.cfg = true) (hs : s.HandlerInv)
    (h : exec i s = .next t) : t.HandlerInv := by
  cases i with
  | empty =>
    obtain rfl := Host.Outcome.next.inj h
    exact { hs with }
  | std tag p =>
    have htag := handlerInv_loadTag hs tag ((payloadFits_iff p).1 (Bool.and_eq_true_iff.1 hwf).2)
    obtain ⟨_, hx⟩ | ⟨_, hx⟩ := execStd_cases tag p s
    · obtain rfl := Host.Outcome.next.inj (hx.symm.trans h); exact { htag with }
    · obtain rfl := Host.Outcome.next.inj (hx.symm.trans h); exact { htag with }
  | delay p =>
    have htag := handlerInv_loadTag hs s.cfg.tagDelay ((payloadFits_iff p).1 hwf)
    obtain ⟨_, hx⟩ | ⟨_, hx⟩ := execDelay_cases p s
    · obtain rfl := Host.Outcome.next.inj (hx.symm.trans h); exact { htag with }
    · obtain rfl := Host.Outcome.next.inj (hx.symm.trans h); exact { htag with }
  | raw p =>
    have hp := (payloadFits_iff p).1 hwf
    have htag := handlerInv_loadTag hs s.cfg.tagRaw hp
    have hrlen := handlerInv_setRlen htag (n := p.length - 4) (by omega)
    obtain ⟨_, hx⟩ | ⟨_, _, hx⟩ | ⟨_, _, hx⟩ := execRaw_cases p s
    · obtain rfl := Host.Outcome.next.inj (hx.symm.trans h); exact { htag with }
    · obtain rfl := Host.Outcome.next.inj (hx.symm.trans h); exact { hrlen with }
    · obtain rfl := Host.Outcome.next.inj (hx.symm.trans h)
      have hraw := handlerInv_loadRaw hrlen (BitVec.ofNat 32 (asm s.cfg.byteOrder (p.take 4))) (n := p.length - 4) (by omega)
      exact { hraw with scrReleased := ⟨rfl, rfl⟩ }
  | pana p =>
    have hp := (payloadFits_iff p).1 hwf
    obtain rfl := Host.Outcome.next.inj ((exec_pana p s hp).symm.trans h)
    have hpana := handlerInv_loadPana (handlerInv_loadTag hs s.cfg.tagPana hp)
      (r := ⟨.done, BitVec.ofNat 8 (p.length - 1), if p = [] then 0 else 7⟩) (toNat_lastByte hp)
    exact { hpana with }
  | unknown tag p =>
    have htag := handlerInv_loadTag hs tag ((payloadFits_iff p).1 (Bool.and_eq_true_iff.1 hwf).2)
    obtain rfl := Host.Outcome.next.inj h
    exact { htag with }
  | rd8 | rd16 | rd32 | rdiw =>
    obtain ⟨v, rfl⟩ := returnRead_next h
    exact { hs with }

/-! ### The invariant is kept -/

theorem inv_setRead {s : State} (h : s.Inv) (v : ReadOut) : (s.takeCall.setRead v).Inv := { h with }

theorem inv_endCycle {s : State} (h : s.Inv) : s.endCycle.Inv :=
  { h with curInside := nofun, idxLe := nofun, frameInside := nofun, outCount := nofun }

/-- R210: a message-level diagnostic ends the walk, and with it what is said of a walk. -/
theorem inv_raiseDiag {s : State} {k : DiagKind} (hk : k.stopsCycle = true) (memWf : s.mem.wf)
    (memRange : ∀ c ∈ s.mem, c.1 < 2 ^ 32) (msgRange : s.mbase.toNat + s.mlen.toNat ≤ 2 ^ 32) (hs : s.HandlerInv) :
    (s.raiseDiag k).Inv := by
  have hnot : (s.raiseDiag k).phase ≠ .run := by simp [hk]
  exact { hs with
    memWf := memWf
    memRange := memRange
    msgRange := msgRange
    curInside := fun h => absurd h hnot
    idxLe := fun h => absurd h hnot
    frameInside := fun h => absurd h hnot
    outCount := fun h => absurd h hnot }

/-- R253: acceptance establishes the invariant for the new message. -/
theorem accept_inv {s t : State} {tr : Transaction} (hinv : s.Inv) (h : s.accept tr = .next t) : t.Inv := by
  have hs : (s.latch tr).HandlerInv := { hinv.handlerInv with }
  obtain ⟨hrange, ⟨_, rfl⟩ | ⟨_, _, rfl⟩ | ⟨n, hlen, _, rfl⟩⟩ := accept_next_cases h
  · exact inv_raiseDiag rfl hinv.memWf hinv.memRange hrange hs
  · exact inv_raiseDiag rfl hinv.memWf hinv.memRange hrange hs
  · have hpos : tr.len.toNat ≠ 0 := fun h => hlen (BitVec.eq_of_toNat_eq h)
    exact { hs with
      memWf := hinv.memWf
      memRange := hinv.memRange
      msgRange := hrange
      curInside := fun _ => ⟨le_refl 1, Nat.one_le_iff_ne_zero.2 hpos⟩
      idxLe := fun _ => Nat.zero_le _
      frameInside := fun _ h => absurd h (Nat.lt_irrefl 0)
      outCount := fun _ => rfl }

/-- R130, R131, R161: a frame that lies in the message, dispatched. -/
theorem dispatch_inv {s t : State} {len : Byte} {body : List Byte} (hinv : s.Inv) (hrun : s.phase = .run)
    (hdue : s.idx ≠ s.nfr) (hlen : body.length = len.toNat) (hfits : s.cur.toNat + 1 + len.toNat ≤ s.mlen.toNat)
    (h : exec (decodeBody s.cfg body) (s.takeLength len).yieldFrame = .next t) : t.Inv := by
  have hsame := exec_sameControl h
  obtain ⟨hwf, _, _⟩ := decodeBody_encode s.cfg body (hlen ▸ Nat.le_of_lt_succ len.isLt)
  have hhandler := exec_handlerInv hwf (s := (s.takeLength len).yieldFrame) { hinv.handlerInv with } h
  obtain ⟨t', e, ht', _, hout, _⟩ := exec_body_next (s := (s.takeLength len).yieldFrame) hlen
  obtain rfl := Host.Outcome.next.inj (h.symm.trans ht')
  have hidx : s.idx.toNat < s.nfr.toNat := lt_of_le_of_ne (hinv.idxLe hrun) fun h => hdue (BitVec.eq_of_toNat_eq h)
  have hcur : t.cur.toNat = s.cur.toNat + 1 + len.toNat := hsame.cur ▸ toNat_cur_yield hfits
  have htidx : t.idx.toNat = s.idx.toNat + 1 := hsame.idx ▸ toNat_idx_succ hidx
  exact { hhandler with
    memWf := hsame.mem ▸ hinv.memWf
    memRange := hsame.mem ▸ hinv.memRange
    msgRange := hsame.mbase ▸ hsame.mlen ▸ hinv.msgRange
    curInside := fun _ => ⟨by omega, by rw [hcur, hsame.mlen]; exact hfits⟩
    idxLe := fun _ => by rw [htidx, hsame.nfr]; exact hidx
    frameInside := fun _ _ => by
      have hlt : s.cur.toNat < s.mlen.toNat := by omega
      rw [hcur, hsame.foff, hsame.flen]
      exact congrArg (· + len.toNat) (toNat_cur_succ hlt)
    outCount := fun _ => by rw [hout, htidx, List.length_append]; exact congrArg (· + 1) (hinv.outCount hrun) }

/-- Settles O3: each kind of step keeps the invariant. -/
theorem stepKeepsTheInvariant : Obligations.StepKeepsTheInvariant := by
  intro s t hinv h
  cases hphase : s.phase with
  | idle =>
    obtain ⟨_, ⟨_, _, hcall⟩ | ⟨_, _, _, rfl⟩ | ⟨_, _, _, _, haccept⟩ | ⟨_, hrun, _⟩ | ⟨_, hrun, _⟩⟩ :=
      step_next_cases h
    · obtain ⟨v, rfl⟩ := readerStep_next hcall
      exact inv_setRead hinv v
    · exact hinv
    · exact accept_inv hinv haccept
    · simp [hphase] at hrun
    · simp [hphase] at hrun
  | run =>
    obtain ⟨v, rfl⟩ | rfl | rfl | ⟨len, _, rfl⟩ | ⟨hdue, len, body, hlen, hfits, hexec⟩ :=
      walk_next_cases hinv hphase h
    · exact inv_setRead hinv v
    · exact inv_endCycle hinv
    · exact inv_raiseDiag rfl hinv.memWf hinv.memRange hinv.msgRange hinv.handlerInv
    · exact inv_raiseDiag rfl hinv.memWf hinv.memRange hinv.msgRange { hinv.handlerInv with }
    · exact dispatch_inv hinv hphase hdue hlen hfits hexec

/-! ### A cycle goes forward -/

/-- R217: no frame's own event is `ReadOutOfBounds`. -/
theorem readOutOfBounds_not_mem_instrEvent (c : Cfg) (i : Instr) : Event.diag .readOutOfBounds ∉ instrEvent c i := by
  cases i with
  | std | delay => simp only [instrEvent]; split_ifs <;> simp
  | raw => simp only [instrEvent, rawEvent]; split_ifs <;> simp
  | empty | pana | unknown | rd8 | rd16 | rd32 | rdiw => simp [instrEvent]

/-- Settles O45: the cursor stands or moves past bytes that are in the message, and each kind of step has its one event or
none. -/
theorem cycleGoesForward : Obligations.CycleGoesForward := by
  intro s t hinv hrun h
  obtain ⟨_, hin⟩ := hinv.curInside hrun
  obtain ⟨v, rfl⟩ | rfl | rfl | ⟨len, hlt, rfl⟩ | ⟨_, len, body, hlen, hfits, hexec⟩ := walk_next_cases hinv hrun h
  · exact ⟨le_refl _, hin, [], by simp⟩
  · exact ⟨le_refl _, hin, [], by simp⟩
  · exact ⟨le_refl _, hin, [.diag .trailingOrTruncatedData], by simp⟩
  · have hcur : ((s.takeLength len).raiseDiag .frameOverrun).cur.toNat = s.cur.toNat + 1 := toNat_cur_succ hlt
    exact ⟨by omega, hcur.trans_le hlt, [.diag .frameOverrun], by simp⟩
  · have hsame := exec_sameControl hexec
    obtain ⟨t', e, ht', hevent, hout, _⟩ := exec_body_next (s := (s.takeLength len).yieldFrame) hlen
    obtain rfl := Host.Outcome.next.inj (hexec.symm.trans ht')
    have hcur : t.cur.toNat = s.cur.toNat + 1 + len.toNat := hsame.cur ▸ toNat_cur_yield hfits
    refine ⟨by omega, by rw [hcur, hsame.mlen]; exact hfits, [e], hout, le_refl 1, ?_⟩
    rw [← hevent]
    exact readOutOfBounds_not_mem_instrEvent _ _

end Sys2Proof.Machine
end
section
/-! Whole cycles (41_frame_decoder.md sections 2 to 5): the machine walks the bytes still due exactly as the big-step reading
does. `awaits` is the simulation relation: a walk stands before bytes it has not read. -/

namespace Sys2Proof.Machine

/-! ### Runs -/

theorem runSteps_succ {s t : State} (h : step s = .next t) (k : Nat) : runSteps (k + 1) s = runSteps k t := by
  simp [runSteps, h]

theorem runSteps_succ_next {k : Nat} {s t : State} (h : runSteps (k + 1) s = .next t) :
    ∃ s1, step s = .next s1 ∧ runSteps k s1 = .next t := by
  cases hs : step s with
  | next s1 => exact ⟨s1, rfl, runSteps_succ hs k ▸ h⟩
  | fault f => simp [runSteps, hs] at h
  | refused r => simp [runSteps, hs] at h

theorem runSteps_add {a : Nat} {s t : State} (h : runSteps a s = .next t) (b : Nat) :
    runSteps (a + b) s = runSteps b t := by
  induction a generalizing s with
  | zero => obtain rfl := Host.Outcome.next.inj h; rw [Nat.zero_add]
  | succ a ih =>
    obtain ⟨s1, hs, h1⟩ := runSteps_succ_next h
    rw [Nat.succ_add, runSteps_succ hs, ih h1]

/-! ### The walk over the bytes still due -/

/-- A walk, with no reader call pending, that stands before the bytes `rest` of its message. -/
structure State.awaits (s : State) (rest : List Byte) : Prop where
  cfgWf : s.cfg.wf = true
  noCall : s.rdCall = none
  running : s.phase = .run
  size : s.cur.toNat + rest.length = s.mlen.toNat
  held : ∀ k < rest.length, s.msgByte (s.cur.toNat + k) = rest[k]?

/-- Within `bound` steps the block is idle and has emitted `es`; it does not leave the scratch buffer held. -/
def State.finishes (s : State) (bound : Nat) (es : List Event) : Prop :=
  ∃ k ≤ bound, ∃ t, runSteps k s = .next t ∧ t.phase = .idle ∧ t.out = s.out ++ es ∧
    (s.scrValid = false → t.scrValid = false)

/-- A step that ends the cycle. -/
theorem finishes_of_step {s t : State} {es : List Event} (h : step s = .next t) (hidle : t.phase = .idle)
    (hout : t.out = s.out ++ es) (hscr : t.scrValid = s.scrValid) (n : Nat) : s.finishes (n + 1) es :=
  ⟨1, Nat.le_add_left 1 n, t, runSteps_succ h 0, hidle, hout, fun hs => hscr.trans hs⟩

/-- A step after which the cycle goes on. -/
theorem finishes_step {s t : State} {e : Event} {n : Nat} {es : List Event} (h : step s = .next t)
    (hout : t.out = s.out ++ [e]) (hscr : s.scrValid = false → t.scrValid = false) (ht : t.finishes n es) :
    s.finishes (n + 1) ([e] ++ es) := by
  obtain ⟨k, hk, u, hrun, hidle, houtu, hscru⟩ := ht
  exact ⟨k + 1, Nat.succ_le_succ hk, u, (runSteps_succ h k).trans hrun, hidle,
    by rw [houtu, hout, List.append_assoc], fun hs => hscru (hscr hs)⟩

/-- R264: no instruction leaves the scratch buffer held that was not. -/
theorem exec_scrValid {i : Instr} {s t : State} (h : exec i s = .next t) (hs : s.scrValid = false) :
    t.scrValid = false := by
  rcases exec_next_cases h with ⟨_, _, rfl⟩ | ⟨_, _, _, _, rfl⟩ | ⟨_, _, _, _, rfl⟩ | ⟨_, _, _, _, rfl⟩ |
    ⟨_, _, _, _, rfl⟩ | ⟨_, _, _, _, rfl⟩ | ⟨_, _, _, _, _, rfl⟩ | ⟨_, _, _, _, _, rfl⟩ | ⟨_, _, rfl⟩ <;>
    simp [hs]

/-- R121: the dispatch of the next frame leaves the walk before the bytes after it. -/
theorem awaits_of_dispatch {s t : State} {i : Instr} {len : Byte} {tail : List Byte} (hs : s.awaits (len :: tail))
    (hlen : len.toNat ≤ tail.length) (h : exec i (s.takeLength len).yieldFrame = .next t) (hrun : t.phase = .run) :
    t.awaits (tail.drop len.toNat) := by
  have hsame := exec_sameControl h
  have hsize := hs.size
  rw [List.length_cons] at hsize
  have hcur : t.cur.toNat = s.cur.toNat + 1 + len.toNat := hsame.cur ▸ toNat_cur_yield (by omega)
  have hbyte (k : Nat) : t.msgByte k = s.msgByte k := by
    simp only [State.msgByte, State.msgAddr, hsame.mem, hsame.mbase]; rfl
  exact {
    cfgWf := hsame.cfg ▸ hs.cfgWf
    noCall := hsame.rdCall.trans hs.noCall
    running := hrun
    size := by rw [hcur, hsame.mlen, List.length_drop]; exact Eq.trans (by omega) hsize
    held := fun k hk => by
      rw [List.length_drop] at hk
      rw [hbyte, hcur, List.getElem?_drop, Nat.add_assoc, Nat.add_assoc, Nat.add_comm 1,
        hs.held _ (by rw [List.length_cons]; omega), List.getElem?_cons_succ] }

/-- R121, R122: a walk with `n` frames due emits the big-step trace of the bytes it stands before, and ends within `n + 1`
steps. -/
theorem awaits_finishes (n : Nat) : ∀ {s : State} {rest : List Byte}, s.awaits rest → s.idx.toNat + n = s.nfr.toNat →
    s.finishes (n + 1) (bigWalk s.cfg n rest) := by
  induction n with
  | zero =>
    intro s rest hs hn
    have hstep : step s = s.tailCheck := by
      rw [step_run s hs.cfgWf hs.noCall hs.running, if_pos (BitVec.eq_of_toNat_eq hn)]
    have hsize := hs.size
    by_cases hend : rest = []
    · have hcur : s.cur = s.mlen := BitVec.eq_of_toNat_eq (by simpa [hend] using hsize)
      rw [bigWalk, if_pos hend]
      exact finishes_of_step (hstep.trans (tailCheck_exactEnd hcur)) rfl (List.append_nil _).symm rfl 0
    · have hcur : s.cur ≠ s.mlen := by
        rintro hcur
        have := List.length_pos_iff.2 hend
        rw [hcur] at hsize
        omega
      rw [bigWalk, if_neg hend]
      exact finishes_of_step (hstep.trans (tailCheck_leftOver hcur)) rfl rfl rfl 0
  | succ n ih =>
    intro s rest hs hn
    have hidx : s.idx.toNat < s.nfr.toNat := by omega
    have hstep : step s = s.frameStep :=
      step_frame s hs.cfgWf hs.noCall hs.running fun h => by rw [h] at hidx; exact Nat.lt_irrefl _ hidx
    have hsize := hs.size
    cases rest with
    | nil =>
      have hcur : s.cur = s.mlen := BitVec.eq_of_toNat_eq hsize
      exact finishes_of_step (hstep.trans (frameStep_missing hcur)) rfl rfl rfl _
    | cons len tail =>
      rw [List.length_cons] at hsize
      have hbyte : s.msgByte s.cur.toNat = some len := by simpa using hs.held 0 (Nat.succ_pos _)
      by_cases hcut : tail.length < len.toNat
      · have hover : s.frameStep = .next ((s.takeLength len).raiseDiag .frameOverrun) :=
          frameStep_overrun (by omega) hbyte (by omega)
        rw [bigWalk, if_pos hcut]
        exact finishes_of_step (hstep.trans hover) rfl rfl rfl _
      · have hlen : (tail.take len.toNat).length = len.toNat := by rw [List.length_take]; omega
        have hdispatch : s.frameStep = exec (decodeBody s.cfg (tail.take len.toNat)) (s.takeLength len).yieldFrame := by
          refine frameStep_dispatches hlen (by omega) fun k hk => ?_
          rw [hs.held k (by rw [List.length_cons]; omega)]
          cases k with
          | zero => rfl
          | succ k => rw [List.getElem?_cons_succ, List.getElem?_cons_succ, List.getElem?_take_of_lt (by omega)]
        obtain ⟨t, e, hexec, hevent, hout, hphase⟩ := exec_body_next (s := (s.takeLength len).yieldFrame) hlen
        have hsame := exec_sameControl hexec
        have ht := awaits_of_dispatch hs (Nat.not_lt.1 hcut) hexec (hphase.trans hs.running)
        have htidx : t.idx.toNat = s.idx.toNat + 1 := hsame.idx ▸ toNat_idx_succ hidx
        have htail := ih ht (by rw [htidx, hsame.nfr, State.yieldFrame_nfr, State.takeLength_nfr]; omega)
        rw [hsame.cfg] at htail
        rw [bigWalk, if_neg hcut, ← State.takeLength_cfg len s, ← State.yieldFrame_cfg, hevent]
        exact finishes_step (hstep.trans (hdispatch.trans hexec)) hout (fun hs => exec_scrValid hexec hs) htail

/-! ### Every cycle ends -/

/-- The bytes between the cursor and the message end, as the buffer holds them. -/
def State.bytesDue (s : State) : List Byte :=
  (List.range (s.mlen.toNat - s.cur.toNat)).map fun k => (s.msgByte (s.cur.toNat + k)).getD 0

/-- A walk over a readable message stands before those bytes. -/
theorem awaits_bytesDue {s : State} (hinv : s.Inv) (hwf : s.cfg.wf = true) (hcall : s.rdCall = none)
    (hrun : s.phase = .run) (hread : s.readable) : s.awaits s.bytesDue := by
  obtain ⟨_, hin⟩ := hinv.curInside hrun
  have hlen : s.bytesDue.length = s.mlen.toNat - s.cur.toNat := by simp [State.bytesDue]
  refine ⟨hwf, hcall, hrun, by omega, fun k hk => ?_⟩
  obtain ⟨b, hb⟩ := Option.isSome_iff_exists.1 (hread (s.cur.toNat + k) (by omega))
  rw [hlen] at hk
  simp [State.bytesDue, hk, hb]

/-- Settles O48: the walk over the bytes due. -/
theorem everyCycleEnds : Obligations.EveryCycleEnds := by
  intro s hinv hwf hcall hrun hread
  obtain ⟨k, hk, t, ht, hidle, _⟩ := awaits_finishes (s.nfr.toNat - s.idx.toNat)
    (awaits_bytesDue hinv hwf hcall hrun hread) (Nat.add_sub_cancel' (hinv.idxLe hrun))
  exact ⟨k, hk, t, ht, hidle⟩

/-! ### The cycle of an offered message -/

/-- R253, R121: once an offered message is accepted, the walk stands before the bytes after its count byte. -/
theorem offered_awaits {s : State} {base : Addr} {count : Byte} {rest : List Byte} (hwf : s.cfg.wf = true)
    (h : s.offered base (count :: rest)) :
    ((s.latch ⟨base, BitVec.ofNat 32 (rest.length + 1)⟩).startWalk count).awaits rest where
  cfgWf := hwf
  noCall := h.noCall
  running := rfl
  size := (Nat.add_comm 1 rest.length).trans h.toNat_length.symm
  held := fun k hk => by
    have hheld := h.held (k + 1) (Nat.succ_lt_succ hk)
    rw [List.getElem?_cons_succ, Nat.add_comm k 1] at hheld
    exact hheld

/-- Settles O49: an empty message by its one step; otherwise the acceptance, and the walk with all frames due. -/
theorem cycleEmitsTheBigStepTrace : Obligations.CycleEmitsTheBigStepTrace := by
  intro s base bytes hwf hoff
  cases bytes with
  | nil =>
    have hstep := emptyMessageIsReported s base hwf hoff
    exact ⟨0, Nat.zero_le _, _, runSteps_succ hstep 0, rfl, rfl, id⟩
  | cons count rest =>
    have hstep := acceptanceReadsTheCount s base count rest hwf hoff
    obtain ⟨k, hk, t, hrun, hidle, hout, hscr⟩ :=
      awaits_finishes count.toNat (offered_awaits hwf hoff) (Nat.zero_add _)
    have := count.isLt
    exact ⟨k, by omega, t, (runSteps_succ hstep k).trans hrun, hidle, hout, hscr⟩

/-! ### The block at rest -/

/-- The host has nothing for the block: no reader call is pending and no transaction presented. -/
structure State.quiet (s : State) : Prop where
  cfgWf : s.cfg.wf = true
  noCall : s.rdCall = none
  noPort : s.port = none

/-- R258: the step of a quiet block leaves it quiet, the host making no move (log 15). -/
theorem step_quiet {s t : State} (hs : s.quiet) (h : step s = .next t) : t.quiet := by
  have hcfg : t.cfg.wf = true := (step_sameInputs h).1 ▸ hs.cfgWf
  obtain ⟨_, ⟨_, hcall, _⟩ | ⟨_, _, _, rfl⟩ | ⟨_, _, _, hport, _⟩ | ⟨_, _, _, htail⟩ | ⟨_, _, _, hframe⟩⟩ :=
    step_next_cases h
  · simp [hs.noCall] at hcall
  · exact hs
  · simp [hs.noPort] at hport
  · obtain ⟨hport, _, _, hcall⟩ := tailCheck_sameLatch htail
    exact ⟨hcfg, hcall.trans hs.noCall, hport.trans hs.noPort⟩
  · obtain ⟨hport, _, _, hcall⟩ := frameStep_sameLatch hframe
    exact ⟨hcfg, hcall.trans hs.noCall, hport.trans hs.noPort⟩

theorem runSteps_quiet {k : Nat} {s t : State} (hs : s.quiet) (h : runSteps k s = .next t) : t.quiet := by
  induction k generalizing s with
  | zero => exact Host.Outcome.next.inj h ▸ hs
  | succ k ih =>
    obtain ⟨s1, h1, hrun⟩ := runSteps_succ_next h
    exact ih (step_quiet hs h1) hrun

/-- R253: the acceptance takes the one transaction there was. -/
theorem offered_step_quiet {s t : State} {base : Addr} {bytes : List Byte} (hwf : s.cfg.wf = true)
    (hoff : s.offered base bytes) (h : step s = .next t) : t.quiet := by
  rw [step_accept s _ hwf hoff.noCall hoff.idle hoff.presented] at h
  obtain ⟨_, ⟨_, rfl⟩ | ⟨_, _, rfl⟩ | ⟨_, _, _, rfl⟩⟩ := accept_next_cases h
  · exact ⟨hwf, hoff.noCall, rfl⟩
  · exact ⟨hwf, hoff.noCall, rfl⟩
  · exact ⟨hwf, hoff.noCall, rfl⟩

/-- R236: a quiet idle block stays as it is. -/
theorem runSteps_rest {s : State} (hs : s.quiet) (hidle : s.phase = .idle) (k : Nat) : runSteps k s = .next s := by
  induction k with
  | zero => rfl
  | succ k ih => rw [runSteps_succ (step_rest s hs.cfgWf hs.noCall hidle hs.noPort), ih]

/-- Of two runs of one state, the later end is where the earlier one came to rest. -/
theorem runSteps_eq_of_rest {s t t' : State} {a b : Nat} (hab : a ≤ b) (ha : runSteps a s = .next t)
    (hb : runSteps b s = .next t') (ht : t.quiet) (hidle : t.phase = .idle) : t = t' := by
  obtain ⟨d, rfl⟩ := Nat.exists_eq_add_of_le hab
  rw [runSteps_add ha, runSteps_rest ht hidle] at hb
  exact Host.Outcome.next.inj hb

/-- Every run of an offered message that has reached idle has emitted the big-step trace of the message. -/
theorem offered_run_out {s t : State} {base : Addr} {bytes : List Byte} {k : Nat} (hwf : s.cfg.wf = true)
    (hoff : s.offered base bytes) (hrun : runSteps (k + 1) s = .next t) (hidle : t.phase = .idle) :
    t.out = bigCycle s.cfg bytes := by
  obtain ⟨k', _, t', hrun', hidle', hout, _⟩ := cycleEmitsTheBigStepTrace s base bytes hwf hoff
  have hquiet {j : Nat} {u : State} (h : runSteps (j + 1) s = .next u) : u.quiet := by
    obtain ⟨s1, h1, hu⟩ := runSteps_succ_next h
    exact runSteps_quiet (offered_step_quiet hwf hoff h1) hu
  obtain hle | hle := Nat.le_total (k + 1) (k' + 1)
  · rw [runSteps_eq_of_rest hle hrun hrun' (hquiet hrun) hidle, hout]
  · rw [← runSteps_eq_of_rest hle hrun' hrun (hquiet hrun') hidle', hout]

/-- Settles O51: both runs emit the big-step trace, which names no register and no address. -/
theorem traceIsIndependentOfThePlace : Obligations.TraceIsIndependentOfThePlace := by
  intro s s' t t' base base' bytes k k' hwf hcfg hoff hoff' hrun hidle hrun' hidle'
  rw [offered_run_out hwf hoff hrun hidle, offered_run_out (hcfg ▸ hwf) hoff' hrun' hidle', hcfg]

/-! ### Framing -/

/-- R132: a walk without a message-level diagnostic went over that many bodies, each after its length byte, back to back. -/
theorem bigWalk_frames (c : Cfg) (n : Nat) : ∀ rest : List Byte,
    Event.diag .frameOverrun ∉ bigWalk c n rest → Event.diag .trailingOrTruncatedData ∉ bigWalk c n rest →
    ∃ bodies : List (List Byte), bodies.length = n ∧ (∀ b ∈ bodies, b.length ≤ 255) ∧
      rest = bodies.flatMap fun b => BitVec.ofNat 8 b.length :: b := by
  induction n with
  | zero =>
    intro rest _ htrailing
    by_cases hend : rest = []
    · exact ⟨[], rfl, by simp, hend⟩
    · simp [bigWalk, hend] at htrailing
  | succ n ih =>
    intro rest hoverrun htrailing
    cases rest with
    | nil => simp [bigWalk] at htrailing
    | cons len tail =>
      by_cases hcut : tail.length < len.toNat
      · simp [bigWalk, hcut] at hoverrun
      · rw [bigWalk, if_neg hcut] at hoverrun htrailing
        obtain ⟨bodies, hcount, hfit, hrest⟩ := ih (tail.drop len.toNat)
          (fun h => hoverrun (List.mem_append_right _ h)) fun h => htrailing (List.mem_append_right _ h)
        have hlen : (tail.take len.toNat).length = len.toNat := by rw [List.length_take]; omega
        refine ⟨tail.take len.toNat :: bodies, by rw [List.length_cons, hcount],
          List.forall_mem_cons.2 ⟨hlen.trans_le (Nat.le_of_lt_succ len.isLt), hfit⟩, ?_⟩
        rw [List.flatMap_cons, ← hrest, hlen, BitVec.ofNat_toNat, BitVec.setWidth_eq, List.cons_append,
          List.take_append_drop]

/-- Settles O50: the run emitted the big-step trace, which without either diagnostic is a well-framed walk. -/
theorem framingLaw : Obligations.FramingLaw := by
  intro s t base bytes k hwf hoff hrun hidle hoverrun htrailing
  rw [offered_run_out hwf hoff hrun hidle] at hoverrun htrailing
  cases bytes with
  | nil => simp [bigCycle] at htrailing
  | cons count rest =>
    obtain ⟨bodies, hcount, hfit, rfl⟩ := bigWalk_frames s.cfg count.toNat rest hoverrun htrailing
    refine ⟨count, bodies, hcount, hfit, rfl, ?_⟩
    simp [List.length_flatMap, Nat.add_comm]

/-! ### Assembled messages -/

/-- One well-framed body at the front of a walk. -/
theorem bigWalk_body (c : Cfg) (n : Nat) (body rest : List Byte) (h : body.length ≤ 255) :
    bigWalk c (n + 1) (BitVec.ofNat 8 body.length :: body ++ rest) =
      instrEvent c (decodeBody c body) ++ bigWalk c n rest := by
  have hlen : (BitVec.ofNat 8 body.length).toNat = body.length := by rw [BitVec.toNat_ofNat]; omega
  simp [bigWalk, hlen]

/-- A word written in its bytes and assembled again. -/
theorem ofNat_asm_split_toNat (o : ByteOrder) {w n : Nat} (hw : w = 8 * n) (v : BitVec w) :
    BitVec.ofNat w (asm o (split o n v.toNat)) = v := by
  rw [ofNat_asm_split o hw, BitVec.ofNat_toNat, BitVec.setWidth_eq]

/-- R86: the body a line is written as is dispatched to the line's event. -/
theorem instrEvent_bodyBytes (c : Cfg) (l : Line) (hc : c.wf = true) (hl : l.wf c = true) :
    instrEvent c (decodeBody c (l.bodyBytes c)) = l.event c := by
  obtain ⟨hdelay, hraw, hpana⟩ := classify_custom c hc
  obtain ⟨hline, _⟩ := Bool.and_eq_true_iff.1 hl
  cases l with
  | std tag code =>
    have hcode := ofNat_asm_split_toNat c.byteOrder (n := 4) rfl code
    simp [Line.bodyBytes, Line.event, decodeBody, classify_standard hline, instrEvent, hcode]
  | delay ms =>
    have hms := ofNat_asm_split_toNat c.byteOrder (n := 2) rfl ms
    simp [Line.bodyBytes, Line.event, decodeBody, hdelay, instrEvent, hms]
  | raw freq ivs =>
    have hfreq := ofNat_asm_split_toNat c.byteOrder (n := 4) rfl freq
    have hlen : (split c.byteOrder 4 freq.toNat ++ ivs.flatMap (split c.byteOrder c.iwb.bytes)).length =
        4 + c.iwb.bytes * ivs.length := by
      rw [List.length_append, split_length, flatMap_split_length]
    have hevent := rawEvent_shaped (c := c) (hlen ▸ Nat.le_add_right 4 _)
      (by rw [hlen, Nat.add_sub_cancel_left, Nat.mul_mod_right])
    rw [List.take_left' (split_length _ _ _), List.drop_left' (split_length _ _ _), hfreq] at hevent
    simp only [Line.bodyBytes, decodeBody, hraw, instrEvent, hevent, Line.event]
    cases hw : c.iwb with
    | two => rw [IntervalWidth.bytes, remainderIntervals_two hw]
    | four => rw [IntervalWidth.bytes, remainderIntervals_four hw]
  | pana bytes => simp [Line.bodyBytes, Line.event, decodeBody, hpana, instrEvent]
  | body bytes => rfl
  | empty => rfl

/-- R86, R132: the walk over the frames of well-formed lines. -/
theorem bigWalk_lines (c : Cfg) (hc : c.wf = true) (lines : List Line) (hl : ∀ l ∈ lines, l.wf c = true) :
    bigWalk c lines.length (lines.flatMap fun l => Entry.assemble c { line := l }) = lines.flatMap (Line.event c) := by
  induction lines with
  | nil => rfl
  | cons l lines ih =>
    obtain ⟨hline, hlines⟩ := List.forall_mem_cons.1 hl
    obtain ⟨_, hfits⟩ := Bool.and_eq_true_iff.1 hline
    rw [List.flatMap_cons, List.flatMap_cons, List.length_cons, ← instrEvent_bodyBytes c l hc hline, ← ih hlines]
    exact bigWalk_body c lines.length (l.bodyBytes c) _ (of_decide_eq_true hfits)

/-- Settles O52: the count byte is the number of lines, and nothing trails the last frame. -/
theorem assembledMessageEmitsItsLines : Obligations.AssembledMessageEmitsItsLines := by
  intro c lines hc hcount hl
  have hlen : (BitVec.ofNat 8 lines.length).toNat = lines.length := by rw [BitVec.toNat_ofNat]; omega
  simpa [Source.assemble, bigCycle, hlen, List.flatMap_map] using bigWalk_lines c hc lines hl

end Sys2Proof.Machine
end
